-- ==== Sys2Proof/Word.lean ====
section
/-! DEFINITION. The two word types that cross a client port: bytes and two-byte quantities (R180). -/

namespace Sys2Proof

/-- A byte of the link, and every one-byte field (R180). -/
abbrev Byte := BitVec 8

/-- A two-byte quantity: coordinates, generation numbers, checksums, fuse values (R180). -/
abbrev Word := BitVec 16

end Sys2Proof
end

