-- ==== Sys2Proof/Syntax.lean ====
section
/-! DEFINITION. The steps of the part, one constructor per row of spec/opcode_table.json. -/

namespace Sys2Proof

/-- A client port, P0 to P3 (R144). -/
abbrev Port := Fin 4
/-- A Lookup Lane, L0 or L1 (R22). -/
abbrev LaneIndex := Fin 2
/-- A build handle, the number of a build context (R61). -/
abbrev Handle := Fin 4
/-- An entry of the proposal table (R80). -/
abbrev ProposalIndex := Fin 8
/-- An entry of the lease table (R102). -/
abbrev LeaseIndex := Fin 32

/-- How far one step clocks a transaction (R144; log 7). A transaction that other events interleave with is several
steps of its row, all but the last of which leave CSN low. The first three stop before the kind byte is in. -/
inductive Clocking where
  /-- CSN has fallen and no bit of the kind byte is clocked. -/
  | selected
  /-- The first bits of the kind byte are shifted, and CSN stays low. -/
  | insideKind
  /-- CSN rises when fewer than eight bits of the kind byte have been clocked; those bits are discarded. -/
  | abandoned
  /-- The bytes are clocked in, the first bits of one byte more are shifted, and CSN stays low. -/
  | insideByte
  /-- The bytes are clocked in and CSN stays low. -/
  | held
  /-- The bytes are clocked in and CSN rises. -/
  | closed
  deriving DecidableEq, Repr

/-- The rows of the table. A control command or lookup names the port whose command it is: the tag and the payload stand
in the frame that POST put into that port's command queue (R130; log 1). -/
inductive Instr where
  | attach (p : Port)
  | detach (p : Port)
  | defineTable (p : Port)
  | tableInfo (p : Port)
  | proposeRetire (p : Port)
  | storeInfo (p : Port)
  | openBuild (p : Port)
  | appendPoints (p : Port)
  | closeBuild (p : Port)
  | cancelBuild (p : Port)
  | approve (p : Port)
  | veto (p : Port)
  | withdraw (p : Port)
  | hold (p : Port)
  | renew (p : Port)
  | release (p : Port)
  | lookup (p : Port)
  | lookupBatch (p : Port)
  | readPoints (p : Port)
  | readOptions (p : Port)
  | programOption (p : Port)
  | closeProvisioning (p : Port)
  | burnCompletion
  | laneGrant
  | captureClaim (l : LaneIndex)
  | releaseClaim (l : LaneIndex)
  | teardownRequest (p : Port)
  | pendingTeardown (p : Port)
  | buildIdleExpiry (h : Handle)
  | proposalExpiry (e : ProposalIndex)
  | leaseExpiry (e : LeaseIndex)
  /-- `bytes` are the bytes the host clocks in after the kind byte. -/
  | post (p : Port) (bytes : List Byte) (c : Clocking)
  /-- `n` is the number of bytes clocked after the kind byte; their values are ignored (Table 79). -/
  | fetch (p : Port) (n : Nat) (c : Clocking)
  | refetch (p : Port) (n : Nat) (c : Clocking)
  | drain (p : Port) (n : Nat) (c : Clocking)
  | status (p : Port) (n : Nat) (c : Clocking)
  /-- `kind` is the kind byte, none of the five that are defined. -/
  | unknownTransactionKind (p : Port) (kind : Byte) (n : Nat) (c : Clocking)
  /-- `headPassed` says that a control command at the head of the port's queue passes to the Table Manager before the
  assertion is taken, which R151 leaves open; the command is then in execution at the port reset (log 6). -/
  | prstnAsserted (p : Port) (headPassed : Bool)
  | prstnReleased (p : Port)
  | rstnAsserted
  | rstnReleased
  | powerOn
  | coldStartUp
  | warmStartUp
  deriving DecidableEq, Repr

end Sys2Proof
end

