-- ==== Sys2Proof/WellFormed.lean ====
section
/-! DEFINITION. Which steps are well formed. Ports, lanes, handles and entries are bounded by their types, so the checks
that remain concern the bytes of a transaction. -/

namespace Sys2Proof

/-- The kind byte is one of the five that Table 96 defines. -/
def isTransactionKind (k : Byte) : Bool :=
  k == 0x01 || k == 0x02 || k == 0x03 || k == 0x04 || k == 0x05

/-- Where a step stops before the kind byte is in, it clocks no byte (R144). -/
def clocksNothing (n : Nat) (c : Clocking) : Bool :=
  match c with
  | .selected | .insideKind | .abandoned => n == 0
  | .insideByte | .held | .closed => true

/-- A step the table has: an unknown kind is none of the five kinds (R146), and no byte is clocked before the kind
byte is in (R144). -/
def Instr.wellFormed : Instr → Bool
  | .post _ bytes c => clocksNothing bytes.length c
  | .fetch _ n c | .refetch _ n c | .drain _ n c | .status _ n c => clocksNothing n c
  | .unknownTransactionKind _ k n c => !isTransactionKind k && clocksNothing n c
  | .attach _ | .detach _ | .defineTable _ | .tableInfo _ | .proposeRetire _ | .storeInfo _ | .openBuild _
  | .appendPoints _ | .closeBuild _ | .cancelBuild _ | .approve _ | .veto _ | .withdraw _ | .hold _ | .renew _
  | .release _ | .lookup _ | .lookupBatch _ | .readPoints _ | .readOptions _ | .programOption _
  | .closeProvisioning _ | .burnCompletion | .laneGrant | .captureClaim _ | .releaseClaim _ | .teardownRequest _
  | .pendingTeardown _ | .buildIdleExpiry _ | .proposalExpiry _ | .leaseExpiry _ | .prstnAsserted _ _
  | .prstnReleased _ | .rstnAsserted | .rstnReleased | .powerOn | .coldStartUp | .warmStartUp => true

end Sys2Proof
end

