-- ==== Sys2Proof/Decode.lean ====
section
/-! DEFINITION. The decoder over the table's bits. No row of spec/opcode_table.json gives bits, so no word spells a
command (log 18). The decoding of command frames by kind byte and payload (Tables 95 and 96) is the part's own and
stands in Machine/Codes.lean and Machine/Operands.lean. -/

namespace Sys2Proof

/-- The command a word of the table's bits spells: none, since no row of the table gives bits. -/
def decodeTableWord (_nbits _w : Nat) : Option Instr := none

end Sys2Proof
end

