-- ==== Sys2Proof/Config.lean ====
section
/-! DEFINITION. What the part fixes: capacities, thresholds and the fuse defaults, and the one free value. -/

namespace Sys2Proof.Config

/-- Points in one block (R2). -/
def pointsPerBlock : Nat := 16
/-- Bytes in which the model keeps one point (log 10). -/
def bytesPerPoint : Nat := 4
/-- Largest point count of a generation (R1). -/
def maxPoints : Nat := 1024
/-- Commands of one port: queued, in execution and answered, together (R150). -/
def windowSize : Nat := 8
/-- Records an event queue holds (R163). -/
def eventCapacity : Nat := 16
/-- Records one DRAIN sends at most (R155). -/
def drainLimit : Nat := 4
/-- A reserve that takes the free count from here to below fires STORE_LOW (R17). -/
def storeLowThreshold : Nat := 32
/-- A return that takes the free count to here re-arms STORE_LOW (R18). -/
def storeLowRearm : Nat := 64
/-- Inputs of one LOOKUP_BATCH at most (R26). -/
def maxInputs : Nat := 16
/-- Points of one APPEND_POINTS or READ_POINTS at most (R66, R14). -/
def maxFramePoints : Nat := 8
/-- Longest payload a command frame may have (R147). -/
def maxPayload : Nat := 35

/-- APPROVAL_WINDOW when BLANK or SPOILED (Table 91). -/
def defaultApprovalWindow : Nat := 500
/-- LEASE_PERIOD when BLANK or SPOILED (Table 91). -/
def defaultLeasePeriod : Nat := 2000
/-- BUILD_IDLE when BLANK or SPOILED (Table 91). -/
def defaultBuildIdle : Nat := 1000
/-- LEASE_LIMIT when BLANK or SPOILED (Table 91). -/
def defaultLeaseLimit : Nat := 8
/-- FIXED_SLOTS when BLANK or SPOILED (Table 91). -/
def defaultFixedSlots : Nat := 0

/-- Free value: what a port shifts out for a byte other than 0x00 that is in progress when its transaction is discarded,
by port and by count of such bytes. R157 and R161 give the bytes after it, 0x00, and leave the rest of its own bits open
(log 7). -/
opaque cutByte : Nat → Nat → Byte

end Sys2Proof.Config
end

