-- ==== Sys2Proof/Machine/State.lean ====
section
/-! DEFINITION. The state of the part, as plain data, with the reasons a step can stop and the state after reset.
A field that the spec says is present only in some states stands in the constructor of that state. -/

namespace Sys2Proof.Machine

/-- A table slot, 0 to 63 (R46). -/
abbrev SlotIndex := Fin 64
/-- A record of the generation pool, 0 to 127 (R7). -/
abbrev RecordIndex := Fin 128
/-- A block of the Point Store, 0 to 511 (R2). -/
abbrev BlockIndex := Fin 512
/-- A generation number; 0 stands for no generation (R11). -/
abbrev GenNumber := BitVec 16
/-- A session number; 0 only as a last session number (R117). -/
abbrev Session := BitVec 8
/-- A set of ports, bit n standing for Pn (R180). -/
abbrev PortSet := BitVec 4
/-- A count of milliseconds (R136). -/
abbrev Time := Nat
/-- The Point Store's contents as (address, byte) cells in canonical form (log 10). -/
abbrev Memory := List Host.Cell

/-! ## Generations (chapter 1) -/

/-- A point; both values are signed, in two's complement (R1, R180). -/
structure Point where
  x : Word
  y : Word
  deriving DecidableEq, Repr

/-- Interpolation mode (R7). -/
inductive Interpolation where
  | linear | step
  deriving DecidableEq, Repr

/-- Extrapolation mode (R7). -/
inductive Extrapolation where
  | clamp | extend | reject
  deriving DecidableEq, Repr

/-- State of a generation record in use, with the fields Table 11 gives that state. -/
inductive GenState where
  | building (declared : Nat) (idleDeadline : Time)
  | pending (checksum : Word)
  | current (checksum : Word)
  | superseded (checksum : Word)
  deriving DecidableEq, Repr

/-- A generation record in use (Table 11). -/
structure GenRecord where
  slot : SlotIndex
  number : GenNumber
  state : GenState
  interpolation : Interpolation
  extrapolation : Extrapolation
  pointCount : Nat
  blocks : List BlockIndex
  refCount : Nat
  deriving DecidableEq, Repr

/-! ## Slots, builds, proposals, leases (chapters 3 to 6) -/

/-- A table definition: the masks and the definer port (R46). -/
structure TableDef where
  readers : PortSet
  builders : PortSet
  approvers : PortSet
  definer : Port
  deriving DecidableEq, Repr

/-- State of a slot, with the definition and the current reference where Table 37 has them. -/
inductive SlotState where
  | vacant
  | defined (d : TableDef)
  | live (d : TableDef) (current : RecordIndex)
  | retiring (d : TableDef)
  deriving DecidableEq, Repr

/-- A slot record (Table 37). -/
structure SlotRecord where
  state : SlotState
  nextNumber : GenNumber
  build : Option Handle
  proposal : Option ProposalIndex
  fixedLatch : Bool
  deriving DecidableEq, Repr

/-- The slot record of a VACANT slot (Table 37). -/
def SlotRecord.vacant : SlotRecord :=
  { state := .vacant, nextNumber := 1, build := none, proposal := none, fixedLatch := false }

/-- An OPEN build context (Table 45). -/
structure BuildContext where
  slot : SlotIndex
  record : RecordIndex
  owner : Port
  session : Session
  deriving DecidableEq, Repr

/-- The change a proposal asks for; a COMMIT names its generation record (Table 52). -/
inductive Change where
  | commit (record : RecordIndex)
  | retire
  deriving DecidableEq, Repr

/-- An OPEN proposal entry (Table 52). `approvals` holds for each port the session under which it approved.
`proposerEnded` is the model's own: the proposer's session has ended, so that a later session with the same number is not
the proposer (R99, R117; log 24). -/
structure Proposal where
  slot : SlotIndex
  change : Change
  proposer : Port
  session : Session
  proposerEnded : Bool
  approvers : PortSet
  approvals : Vector (Option Session) 4
  deadline : Time
  deriving DecidableEq, Repr

/-- Outcome of a proposal, PENDING while it is open (Table 96). -/
inductive ProposalOutcome where
  | pending | adopted | rejected | lapsed | withdrawn
  deriving DecidableEq, Repr

/-- A lease entry IN USE (Table 58). -/
structure Lease where
  port : Port
  session : Session
  slot : SlotIndex
  record : RecordIndex
  expiry : Time
  deriving DecidableEq, Repr

/-! ## Sessions (chapter 7) -/

/-- State of a session entry, with its current or ending session (Table 63). -/
inductive SessionState where
  | detached
  | attached (current : Session)
  | ending (session : Session)
  deriving DecidableEq, Repr

/-- A session entry (Table 63). -/
structure SessionEntry where
  state : SessionState
  last : Session
  teardownPending : Bool
  deriving DecidableEq, Repr

/-- The session entry after a cold reset (R128). -/
def SessionEntry.initial : SessionEntry :=
  { state := .detached, last := 0, teardownPending := false }

/-! ## Frames, responses and events (chapters 8 to 10, 12) -/

/-- The command kinds (Table 95). -/
inductive CommandKind where
  | attach | detach | defineTable | tableInfo | proposeRetire | storeInfo
  | openBuild | appendPoints | closeBuild | cancelBuild
  | approve | veto | withdraw | hold | renew | release
  | lookup | lookupBatch | readPoints | readOptions | programOption | closeProvisioning
  deriving DecidableEq, Repr

/-- The status codes (Table 76). -/
inductive Status where
  | ok | notAttached | alreadyAttached | badArgument | slotState | noAccess | slotFixed | buildOpen
  | proposalOpen | noContext | noRecord | noSpace | buildUnknown | buildOverrun | notMonotonic | tooFewPoints
  | checksumMismatch | proposalFull | noProposal | notApprover | staleProposal | notProposer | leaseHeld | noLease
  | leaseLimitReached | leaseFull | notLive | fuseSet | fuseSpoiled | fuseBusy | provisioningClosed | outOfRange
  deriving DecidableEq, Repr

/-- The accept codes (Table 80). -/
inductive AcceptCode where
  | accepted | windowFull | crcError | lengthError | unknownKind | portResetting | notReady
  deriving DecidableEq, Repr

/-- An accepted command frame: kind, tag and payload (R147). -/
structure Frame where
  kind : CommandKind
  tag : Byte
  payload : List Byte
  deriving DecidableEq, Repr

/-- A response frame: kind, tag, status and payload (R152). -/
structure Response where
  kind : CommandKind
  tag : Byte
  status : Status
  payload : List Byte
  deriving DecidableEq, Repr

/-- The command in execution of a port, with its discard mark (Table 77). -/
structure Execution where
  frame : Frame
  discard : Bool
  deriving DecidableEq, Repr

/-- The event kinds (R162). -/
inductive EventKind where
  | proposalOpened | proposalResolved | generationChanged | leaseExpired | buildExpired | storeLow
  deriving DecidableEq, Repr

/-- The detail field of an event record: 0, a proposal kind or an outcome (Table 85). -/
inductive EventDetail where
  | zero
  | ofChange (isRetire : Bool)
  | ofOutcome (o : ProposalOutcome)
  deriving DecidableEq, Repr

/-- An event record (R162). `port` is absent where the field carries 0 without naming P0. -/
structure EventRecord where
  kind : EventKind
  slot : SlotIndex
  number : Word
  detail : EventDetail
  port : Option Port
  deriving DecidableEq, Repr

/-! ## Lookup Lanes (chapter 2) -/

/-- The flags of one result (Table 31). -/
structure ResultFlags where
  below : Bool
  above : Bool
  saturated : Bool
  rejected : Bool
  stale : Bool
  deriving DecidableEq, Repr

/-- The result of one input (R29). -/
structure LookupResult where
  value : Word
  flags : ResultFlags
  deriving DecidableEq, Repr

/-- What a lane holds from a successful capture claim on (Table 24). -/
structure Capture where
  record : RecordIndex
  stale : Bool
  results : List LookupResult
  deriving DecidableEq, Repr

/-- Working record of a BUSY lane (Table 24). `frame` is the command with its tag; `count` is the input count as
carried, 1 for a LOOKUP. -/
structure LaneWork where
  port : Port
  frame : Frame
  slot : Byte
  options : Byte
  count : Nat
  inputs : List Word
  capture : Option Capture
  deriving DecidableEq, Repr

/-! ## Client ports (chapter 9) -/

/-- Position of a transaction in its bytes (R144 to R155). -/
inductive TxnPhase where
  /-- The kind byte is being clocked, and the status byte taken at CSN falling is being shifted out (R145). -/
  | select (statusByte : Byte)
  /-- POST, with the frame bytes received (R147). -/
  | post (got : List Byte)
  /-- POST decided ACCEPTED: the accept byte is next (R149). -/
  | accepting (frame : Frame)
  /-- POST decided otherwise: the accept byte is next (R148). -/
  | rejecting (code : AcceptCode)
  /-- FETCH of the head response, with the bytes still to send (R153). -/
  | fetch (left : List Byte)
  /-- REFETCH or an empty marker, with the bytes still to send (R153, R154). -/
  | send (left : List Byte)
  /-- DRAIN: the count byte is next (R155). -/
  | drainCount (n : Nat)
  /-- DRAIN: `left` records to send, the first from byte `pos` on; `acc` are the bytes sent (R155). -/
  | drainRecord (left : Nat) (pos : Nat) (acc : List Byte)
  /-- DRAIN: the lost byte is next; `dropped` when a record was dropped after its first bit (R155). -/
  | drainLost (acc : List Byte) (dropped : Bool)
  /-- DRAIN: the CRC-8 is next (R155). -/
  | drainCheck (acc : List Byte)
  /-- Nothing more to do: 0x00 is shifted and bytes are ignored until CSN rises (R144). -/
  | rest
  deriving DecidableEq, Repr

/-- A transaction in progress. `kind` is absent until the kind byte is in; `out` is the byte being shifted out when the
first bits of a byte have been clocked (log 7). -/
structure Txn where
  kind : Option Byte
  phase : TxnPhase
  out : Option Byte
  deriving DecidableEq, Repr

/-- State of a client port (Table 77), with its pins. `txn` is absent while CSN is high; `sent` are the bytes shifted
out on MISO in the latest transaction (log 8), and `cuts` counts the bytes that a discard has cut short (log 7). -/
structure PortState where
  txn : Option Txn
  sent : List Byte
  cmdQueue : List Frame
  inExec : Option Execution
  respQueue : List Response
  lastFetched : Option Response
  events : List EventRecord
  lost : Bool
  resetting : Bool
  teardownOutstanding : Bool
  attached : Bool
  attn : Bool
  prstnLow : Bool
  cuts : Nat
  deriving DecidableEq, Repr

/-- A port after start-up with PRSTN released (Table 82), no transaction in progress. -/
def PortState.initial : PortState :=
  { txn := none, sent := [], cmdQueue := [], inExec := none, respQueue := [], lastFetched := none, events := [],
    lost := false, resetting := false, teardownOutstanding := false, attached := false, attn := false,
    prstnLow := false, cuts := 0 }

/-! ## Fuses and start-up (chapter 11) -/

/-- The fuse fields, in the order of their codes (Tables 91 and 96). -/
inductive FuseField where
  | portEnable | definer | approvalWindow | leasePeriod | buildIdle | leaseLimit | fixedSlots | warmRetain
  | provisionClosed
  deriving DecidableEq, Repr

/-- One field of the fuse array: start marker, completion marker, value cells (R170). -/
structure FuseCell where
  start : Bool
  completion : Bool
  cells : Word
  deriving DecidableEq, Repr

/-- A field nothing was burned in (R170). -/
def FuseCell.blank : FuseCell := { start := false, completion := false, cells := 0 }

/-- Array state of a field, as READ_OPTIONS reports it (R170, R175). -/
inductive FuseState where
  | blank | burning | programmed | spoiled
  deriving DecidableEq, Repr

/-- The burn in progress (R173). -/
structure Burn where
  field : FuseField
  value : Word
  port : Port
  deriving DecidableEq, Repr

/-- The shadow: one value in use per field (R171). -/
structure Shadow where
  portEnable : PortSet
  definer : PortSet
  approvalWindow : Nat
  leasePeriod : Nat
  buildIdle : Nat
  leaseLimit : Nat
  fixedSlots : Nat
  warmRetain : Bool
  provisionClosed : Bool
  deriving DecidableEq, Repr

/-- The defaults of Table 91. -/
def Shadow.defaults : Shadow :=
  { portEnable := 0xF, definer := 0xF, approvalWindow := Config.defaultApprovalWindow,
    leasePeriod := Config.defaultLeasePeriod, buildIdle := Config.defaultBuildIdle,
    leaseLimit := Config.defaultLeaseLimit, fixedSlots := Config.defaultFixedSlots, warmRetain := true,
    provisionClosed := false }

/-- The two kinds of device reset (R177). -/
inductive ResetKind where
  | cold | warm
  deriving DecidableEq, Repr

/-- Progress of reset and start-up (R177). -/
inductive Phase where
  | running
  /-- RSTN is low. -/
  | inReset (k : ResetKind)
  /-- The start-up of this kind has begun. -/
  | startUp (k : ResetKind)
  deriving DecidableEq, Repr

/-! ## The whole part -/

/-- The reasons for which the model stops. The spec itself has none (INVENTORY.md, Faults). -/
inductive Fault where
  /-- Raised by APPEND_POINTS, CLOSE_BUILD, READ_POINTS, LOOKUP, LOOKUP_BATCH and RELEASE_CLAIM when R2 gives a point
  they need no location: the record is FREE or no longer BUILDING, its block list is too short, or a captured record
  has fewer than two points. Safe: the
  model stops, and only in states that the device laws (R4, R7, R9) exclude (log 14). -/
  | pointNotLocated
  deriving DecidableEq, Repr

/-- The steps without a meaning. -/
inductive Refusal where
  /-- Raised by `exec` for a row that has no meaning yet; no row is left so. Safe: the model stops. -/
  | notModelled (mnemonic : String)
  deriving DecidableEq, Repr

/-- The state of the part, and the queue `pending` of the steps that are waiting, first in, first out. -/
structure State where
  store : Memory
  freeList : List BlockIndex
  records : Vector (Option GenRecord) 128
  storeLowArmed : Bool
  slots : Vector SlotRecord 64
  contexts : Vector (Option BuildContext) 4
  proposals : Vector (Option Proposal) 8
  leases : Vector (Option Lease) 32
  sessions : Vector SessionEntry 4
  controlPtr : Port
  /-- Teardown requests presented and not yet taken, oldest first (R121, R134). -/
  requests : List Port
  lanes : Vector (Option LaneWork) 2
  lanePtr : Port
  ports : Vector PortState 4
  fuses : Vector FuseCell 9
  burn : Option Burn
  /-- Absent from power-on until a cold start-up loads it (R177). -/
  shadow : Option Shadow
  ready : Bool
  rstnLow : Bool
  phase : Phase
  time : Time
  pending : List Instr
  deriving DecidableEq, Repr

/-- The part after a completed cold start-up from power-on, with a BLANK fuse array and the input pins at rest
(R178; log 9). -/
def State.reset : State :=
  { store := []
    freeList := List.finRange 512
    records := Vector.replicate 128 none
    storeLowArmed := true
    slots := Vector.replicate 64 SlotRecord.vacant
    contexts := Vector.replicate 4 none
    proposals := Vector.replicate 8 none
    leases := Vector.replicate 32 none
    sessions := Vector.replicate 4 SessionEntry.initial
    controlPtr := 0
    requests := []
    lanes := Vector.replicate 2 none
    lanePtr := 0
    ports := Vector.replicate 4 PortState.initial
    fuses := Vector.replicate 9 FuseCell.blank
    burn := none
    shadow := some Shadow.defaults
    ready := true
    rstnLow := false
    phase := .running
    time := 0
    pending := [] }

end Sys2Proof.Machine
end

