-- ==== Sys2Proof/Machine/Codes.lean ====
section
/-! DEFINITION. The numeric values of every code that crosses a client port (R185, Tables 95 and 96), and the byte
order of two-byte quantities (R180). -/

namespace Sys2Proof.Machine

/-- The more significant byte, sent first (R180). -/
def highByte (w : Word) : Byte := (w >>> 8).setWidth 8
/-- The less significant byte (R180). -/
def lowByte (w : Word) : Byte := w.setWidth 8
/-- A two-byte quantity as it is sent (R180). -/
def wordBytes (w : Word) : List Byte := [highByte w, lowByte w]
/-- A two-byte quantity from its bytes as received (R180). -/
def wordOf (hi lo : Byte) : Word := (hi ++ lo : BitVec (8 + 8))
/-- A count or a duration in two bytes (R180). -/
def countBytes (n : Nat) : List Byte := wordBytes (BitVec.ofNat 16 n)
/-- A count in one byte (R180). -/
def countByte (n : Nat) : Byte := BitVec.ofNat 8 n
/-- A yes or no item (Table 96). -/
def flagByte (b : Bool) : Byte := if b then 0x01 else 0x00
/-- A port, as its number (R180). -/
def portByte (p : Port) : Byte := BitVec.ofNat 8 p.val
/-- A mask: bit n stands for Pn (R180). -/
def maskByte (m : PortSet) : Byte := m.setWidth 8
/-- A slot number (R180). -/
def slotByte (k : SlotIndex) : Byte := BitVec.ofNat 8 k.val

/-- The command kinds in the order of Table 95. -/
def CommandKind.all : List CommandKind :=
  [.attach, .detach, .defineTable, .tableInfo, .proposeRetire, .storeInfo, .openBuild, .appendPoints, .closeBuild,
   .cancelBuild, .approve, .veto, .withdraw, .hold, .renew, .release, .lookup, .lookupBatch, .readPoints,
   .readOptions, .programOption, .closeProvisioning]

/-- The command kind byte (Table 95). -/
def CommandKind.code : CommandKind → Byte
  | .attach => 0x01 | .detach => 0x02
  | .defineTable => 0x10 | .tableInfo => 0x11 | .proposeRetire => 0x12 | .storeInfo => 0x13
  | .openBuild => 0x20 | .appendPoints => 0x21 | .closeBuild => 0x22 | .cancelBuild => 0x23
  | .approve => 0x30 | .veto => 0x31 | .withdraw => 0x32
  | .hold => 0x40 | .renew => 0x41 | .release => 0x42
  | .lookup => 0x50 | .lookupBatch => 0x51 | .readPoints => 0x52
  | .readOptions => 0x60 | .programOption => 0x61 | .closeProvisioning => 0x62

/-- The command kind a byte stands for; none when it is not listed in Table 95 (R184). -/
def CommandKind.ofCode (b : Byte) : Option CommandKind := CommandKind.all.find? (fun k => k.code == b)

/-- Whether a length is among those Table 95 allows for the kind. -/
def CommandKind.allowsLength (k : CommandKind) (n : Nat) : Bool :=
  match k with
  | .attach | .detach | .storeInfo | .readOptions | .closeProvisioning => n == 0
  | .tableInfo | .proposeRetire | .cancelBuild | .withdraw | .hold | .renew | .release => n == 1
  | .closeBuild | .approve | .veto | .programOption => n == 3
  | .defineTable | .lookup => n == 4
  | .openBuild | .readPoints => n == 5
  | .appendPoints => (List.range Config.maxFramePoints).any (fun k => n == 2 + 4 * (k + 1))
  | .lookupBatch => (List.range Config.maxInputs).any (fun k => n == 3 + 2 * (k + 1))

/-- Whether the lanes carry out the kind (Table 71). -/
def CommandKind.isLookup : CommandKind → Bool
  | .lookup | .lookupBatch => true
  | .attach | .detach | .defineTable | .tableInfo | .proposeRetire | .storeInfo | .openBuild | .appendPoints
  | .closeBuild | .cancelBuild | .approve | .veto | .withdraw | .hold | .renew | .release | .readPoints
  | .readOptions | .programOption | .closeProvisioning => false

/-- The status byte of a response (the table of status codes of R185). -/
def Status.code : Status → Byte
  | .ok => 0x00 | .notAttached => 0x01 | .alreadyAttached => 0x02 | .badArgument => 0x03
  | .slotState => 0x04 | .noAccess => 0x05 | .slotFixed => 0x06 | .buildOpen => 0x07
  | .proposalOpen => 0x08 | .noContext => 0x09 | .noRecord => 0x0A | .noSpace => 0x0B
  | .buildUnknown => 0x0C | .buildOverrun => 0x0D | .notMonotonic => 0x0E | .tooFewPoints => 0x0F
  | .checksumMismatch => 0x10 | .proposalFull => 0x11 | .noProposal => 0x12 | .notApprover => 0x13
  | .staleProposal => 0x14 | .notProposer => 0x15 | .leaseHeld => 0x16 | .noLease => 0x17
  | .leaseLimitReached => 0x18 | .leaseFull => 0x19 | .notLive => 0x1A | .fuseSet => 0x1B
  | .fuseSpoiled => 0x1C | .fuseBusy => 0x1D | .provisioningClosed => 0x1E | .outOfRange => 0x1F

/-- The accept byte (Table 96). -/
def AcceptCode.code : AcceptCode → Byte
  | .accepted => 0x00 | .windowFull => 0x01 | .crcError => 0x02 | .lengthError => 0x03
  | .unknownKind => 0x04 | .portResetting => 0x05 | .notReady => 0x06

/-- Interpolation mode (Table 96). -/
def Interpolation.code : Interpolation → Byte
  | .linear => 0x00 | .step => 0x01

/-- Extrapolation mode (Table 96). -/
def Extrapolation.code : Extrapolation → Byte
  | .clamp => 0x00 | .extend => 0x01 | .reject => 0x02

/-- Slot state (Table 96). -/
def SlotState.code : SlotState → Byte
  | .vacant => 0x00 | .defined _ => 0x01 | .live _ _ => 0x02 | .retiring _ => 0x03

/-- Outcome (Table 96). -/
def ProposalOutcome.code : ProposalOutcome → Byte
  | .pending => 0x00 | .adopted => 0x01 | .rejected => 0x02 | .lapsed => 0x03 | .withdrawn => 0x04

/-- Whether the change is a RETIRE. -/
def Change.isRetire : Change → Bool
  | .commit _ => false
  | .retire => true

/-- Proposal kind: COMMIT or RETIRE (Table 96). -/
def changeCode (isRetire : Bool) : Byte := if isRetire then 0x02 else 0x01

/-- Event kind (Table 96). -/
def EventKind.code : EventKind → Byte
  | .proposalOpened => 0x01 | .proposalResolved => 0x02 | .generationChanged => 0x03
  | .leaseExpired => 0x04 | .buildExpired => 0x05 | .storeLow => 0x06

/-- The detail byte of an event record (Table 98). -/
def EventDetail.code : EventDetail → Byte
  | .zero => 0x00
  | .ofChange r => changeCode r
  | .ofOutcome o => o.code

/-- The 6 bytes of an event record (R187). -/
def EventRecord.bytes (e : EventRecord) : List Byte :=
  [e.kind.code, slotByte e.slot, highByte e.number, lowByte e.number, e.detail.code,
   match e.port with
   | some p => portByte p
   | none => 0x00]

/-- The fuse fields in the order of their codes (Table 96). -/
def FuseField.all : List FuseField :=
  [.portEnable, .definer, .approvalWindow, .leasePeriod, .buildIdle, .leaseLimit, .fixedSlots, .warmRetain,
   .provisionClosed]

/-- Position of a field in the array, one less than its code. -/
def FuseField.index : FuseField → Fin 9
  | .portEnable => 0 | .definer => 1 | .approvalWindow => 2 | .leasePeriod => 3 | .buildIdle => 4
  | .leaseLimit => 5 | .fixedSlots => 6 | .warmRetain => 7 | .provisionClosed => 8

/-- Fuse field code (Table 96). -/
def FuseField.code (f : FuseField) : Byte := BitVec.ofNat 8 (f.index.val + 1)

/-- The fuse field a byte stands for (Table 96). -/
def FuseField.ofCode (b : Byte) : Option FuseField := FuseField.all.find? (fun f => f.code == b)

/-- Fuse array state (Table 96). -/
def FuseState.code : FuseState → Byte
  | .blank => 0x00 | .burning => 0x01 | .programmed => 0x02 | .spoiled => 0x03

end Sys2Proof.Machine
end

