-- ==== Sys2Proof/Machine/Flags.lean ====
section
/-! DEFINITION. The flags and indications the part reports in bits: the result flags (Table 31), the port status byte
(Table 93), the window count (R150) and ATTN (R156). -/

namespace Sys2Proof.Machine

/-- No flag set. -/
def ResultFlags.none : ResultFlags :=
  { below := false, above := false, saturated := false, rejected := false, stale := false }

/-- The flags byte of a result (Table 96). -/
def ResultFlags.code (f : ResultFlags) : Byte :=
  (if f.below then 0x01 else 0x00) ||| (if f.above then 0x02 else 0x00) ||| (if f.saturated then 0x04 else 0x00)
    ||| (if f.rejected then 0x08 else 0x00) ||| (if f.stale then 0x10 else 0x00)

/-- The window count: commands queued, the command in execution and responses waiting (R150). -/
def PortState.window (x : PortState) : Nat :=
  x.cmdQueue.length + (if x.inExec.isSome then 1 else 0) + x.respQueue.length

/-- Whether anything waits that ATTN announces (R156). -/
def PortState.wantsAttention (x : PortState) : Bool :=
  !x.respQueue.isEmpty || !x.events.isEmpty || x.lost

/-- ATTN re-evaluated (R156). -/
def PortState.reevaluate (x : PortState) : PortState := { x with attn := x.wantsAttention }

/-- The port status byte outside start-up (R145, R181). -/
def PortState.statusByte (x : PortState) : Byte :=
  countByte (Config.windowSize - x.window)
    ||| (if x.respQueue.isEmpty then 0x00 else 0x10)
    ||| (if !x.events.isEmpty || x.lost then 0x20 else 0x00)
    ||| (if x.attached then 0x40 else 0x00)
    ||| (if x.resetting then 0x80 else 0x00)

end Sys2Proof.Machine
end

