-- ==== Sys2Proof/Machine/Checks.lean ====
section
/-! DEFINITION. The two check computations (R183, R69). -/

namespace Sys2Proof.Machine

/-- One left shift of the CRC-8 register; 0x07 is combined in when the bit shifted out was 1 (R183). -/
def crc8Shift (r : Byte) : Byte := if r.msb then (r <<< 1) ^^^ 0x07 else r <<< 1

/-- One byte through the CRC-8 register: exclusive OR, then eight shifts (R183). -/
def crc8Byte (r b : Byte) : Byte := crc8Shift^[8] (r ^^^ b)

/-- CRC-8, starting value 0x00 (R183). -/
def crc8 (bs : List Byte) : Byte := bs.foldl crc8Byte 0x00

/-- One left shift of the CRC-16 register; 0x1021 is combined in when the bit shifted out was 1 (R183). -/
def crc16Shift (r : Word) : Word := if r.msb then (r <<< 1) ^^^ 0x1021 else r <<< 1

/-- One byte through the CRC-16 register: exclusive OR into the high byte, then eight shifts (R183). -/
def crc16Byte (r : Word) (b : Byte) : Word := crc16Shift^[8] (r ^^^ (b.setWidth 16 <<< 8))

/-- CRC-16, starting value 0xFFFF (R183). -/
def crc16 (bs : List Byte) : Word := bs.foldl crc16Byte 0xFFFF

/-- The four bytes of a point: x high, x low, y high, y low (R69). -/
def Point.bytes (p : Point) : List Byte := wordBytes p.x ++ wordBytes p.y

/-- The checksum of a generation's points (R69). -/
def checksumOf (ps : List Point) : Word := crc16 (ps.flatMap Point.bytes)

/-- The bytes of a response frame as FETCH sends them, CRC-8 last (R152, R153). -/
def Response.bytes (r : Response) : List Byte :=
  let body := [r.kind.code, r.tag, r.status.code, countByte r.payload.length] ++ r.payload
  body ++ [crc8 body]

/-- The bytes a host clocks in to post a frame: kind, tag, length, payload, CRC-8 and the byte more (R147). -/
def postBytes (kind tag : Byte) (payload : List Byte) : List Byte :=
  let body := [kind, tag, countByte payload.length] ++ payload
  body ++ [crc8 body, 0x00]

end Sys2Proof.Machine
end

