-- ==== Sys2Proof/Machine/Operands.lean ====
section
/-! DEFINITION. The fields of command payloads, read in the order of Table 95, and the range of each (R140, R180). A
payload whose length the port would not have accepted has no fields; its command is refused BAD_ARGUMENT (log 15). -/

namespace Sys2Proof.Machine

/-- A slot byte from 0 to 63. -/
def slotOf (b : Byte) : Option SlotIndex := if h : b.toNat < 64 then some ⟨b.toNat, h⟩ else none

/-- A handle byte from 0 to 3. -/
def handleOf (b : Byte) : Option Handle := if h : b.toNat < 4 then some ⟨b.toNat, h⟩ else none

/-- A mask byte with bits 7 to 4 clear (R180). -/
def maskOf (b : Byte) : Option PortSet := if b.toNat < 16 then some (b.setWidth 4) else none

/-- A point count that OPEN_BUILD may declare, 2 to 1024 (R64). -/
def declaredOf (w : Word) : Option Nat :=
  if 2 ≤ w.toNat ∧ w.toNat ≤ Config.maxPoints then some w.toNat else none

/-- An interpolation mode byte (Table 96). -/
def interpolationOf (b : Byte) : Option Interpolation :=
  [Interpolation.linear, Interpolation.step].find? (fun m => m.code == b)

/-- An extrapolation mode byte (Table 96). -/
def extrapolationOf (b : Byte) : Option Extrapolation :=
  [Extrapolation.clamp, Extrapolation.extend, Extrapolation.reject].find? (fun m => m.code == b)

/-- Two-byte quantities, one after another; none for an odd byte left over. -/
def wordsOf : List Byte → Option (List Word)
  | [] => some []
  | hi :: lo :: rest => (wordsOf rest).map (wordOf hi lo :: ·)
  | [_] => none

/-- Points, one after another, x before y; none for bytes left over. -/
def pointsOf : List Byte → Option (List Point)
  | [] => some []
  | xh :: xl :: yh :: yl :: rest => (pointsOf rest).map (⟨wordOf xh xl, wordOf yh yl⟩ :: ·)
  | _ => none

/-- What a READ_POINTS selector names (Table 17). -/
inductive Selector where
  | current | leased | pending
  deriving DecidableEq, Repr

/-- A selector byte (Table 96). -/
def selectorOf (b : Byte) : Option Selector :=
  if b = 0x00 then some .current else if b = 0x01 then some .leased else if b = 0x02 then some .pending else none

/-- DEFINE_TABLE: slot, reader mask, builder mask, approver mask. -/
structure DefineArgs where
  slot : SlotIndex
  readers : PortSet
  builders : PortSet
  approvers : PortSet
  deriving DecidableEq, Repr

/-- The fields of DEFINE_TABLE, each within its own range. -/
def defineArgs : List Byte → Option DefineArgs
  | [k, r, b, a] =>
    match slotOf k, maskOf r, maskOf b, maskOf a with
    | some k, some r, some b, some a => some ⟨k, r, b, a⟩
    | _, _, _, _ => none
  | _ => none

/-- The one field of TABLE_INFO, PROPOSE_RETIRE, WITHDRAW, HOLD, RENEW and RELEASE: a slot. -/
def slotArg : List Byte → Option SlotIndex
  | [k] => slotOf k
  | _ => none

/-- APPROVE and VETO: slot and generation number. -/
def slotNumberArgs : List Byte → Option (SlotIndex × GenNumber)
  | [k, hi, lo] => (slotOf k).map (·, wordOf hi lo)
  | _ => none

/-- OPEN_BUILD: slot, declared count, modes. -/
structure OpenArgs where
  slot : SlotIndex
  declared : Nat
  interpolation : Interpolation
  extrapolation : Extrapolation
  deriving DecidableEq, Repr

/-- The fields of OPEN_BUILD, each within its range (R64). -/
def openArgs : List Byte → Option OpenArgs
  | [k, dh, dl, i, e] =>
    match slotOf k, declaredOf (wordOf dh dl), interpolationOf i, extrapolationOf e with
    | some k, some d, some i, some e => some ⟨k, d, i, e⟩
    | _, _, _, _ => none
  | _ => none

/-- The fields of APPEND_POINTS: the handle, and as many points as the count byte says, 1 to 8 (R66). -/
def appendArgs : List Byte → Option (Handle × List Point)
  | h :: n :: rest =>
    match handleOf h, pointsOf rest with
    | some h, some ps =>
      if 1 ≤ n.toNat ∧ n.toNat ≤ Config.maxFramePoints ∧ n.toNat = ps.length then some (h, ps) else none
    | _, _ => none
  | _ => none

/-- CLOSE_BUILD: handle and expected checksum. -/
def closeArgs : List Byte → Option (Handle × Word)
  | [h, ch, cl] => (handleOf h).map (·, wordOf ch cl)
  | _ => none

/-- CANCEL_BUILD: handle. -/
def handleArg : List Byte → Option Handle
  | [h] => handleOf h
  | _ => none

/-- READ_POINTS: slot, selector, index, count. -/
structure ReadArgs where
  slot : SlotIndex
  selector : Selector
  index : Nat
  count : Nat
  deriving DecidableEq, Repr

/-- The fields of READ_POINTS, each within its range (R15 step 2). -/
def readArgs : List Byte → Option ReadArgs
  | [k, sel, ih, il, n] =>
    match slotOf k, selectorOf sel with
    | some k, some sel =>
      if (wordOf ih il).toNat < Config.maxPoints ∧ 1 ≤ n.toNat ∧ n.toNat ≤ Config.maxFramePoints then
        some ⟨k, sel, (wordOf ih il).toNat, n.toNat⟩
      else none
    | _, _ => none
  | _ => none

/-- Whether a value is in the range of a fuse field and a multiple of its step (Table 91, R184). -/
def FuseField.inRange (f : FuseField) (v : Word) : Bool :=
  let n := v.toNat
  match f with
  | .portEnable => 1 ≤ n && n ≤ 15
  | .definer => n ≤ 15
  | .approvalWindow => 10 ≤ n && n ≤ 10000 && n % 10 == 0
  | .leasePeriod => 100 ≤ n && n ≤ 60000 && n % 100 == 0
  | .buildIdle => 100 ≤ n && n ≤ 10000 && n % 100 == 0
  | .leaseLimit => 1 ≤ n && n ≤ 32
  | .fixedSlots => n ≤ 64
  | .warmRetain => n ≤ 1
  | .provisionClosed => n == 1

/-- The fields of PROGRAM_OPTION: a field other than PROVISION_CLOSED and a value in its range (R172 step 2). -/
def optionArgs : List Byte → Option (FuseField × Word)
  | [f, vh, vl] =>
    match FuseField.ofCode f with
    | some f => if f ≠ .provisionClosed ∧ f.inRange (wordOf vh vl) then some (f, wordOf vh vl) else none
    | none => none
  | _ => none

/-- IGNORE_LEASE, bit 0 of the options byte (R184). -/
def ignoreLease (options : Byte) : Bool := options.getLsbD 0
/-- REQUIRE_LEASE, bit 1 of the options byte (R184). -/
def requireLease (options : Byte) : Bool := options.getLsbD 1
/-- Options in range: the two are not both set, and no other bit is (R26 step 2). -/
def optionsInRange (options : Byte) : Bool := options.toNat < 3

end Sys2Proof.Machine
end

