-- ==== Sys2Proof/Machine/Ops.lean ====
section
/-! DEFINITION. The shared operations: the Point Store, the tables, the free block list and the reference counts, the
delivery of events and responses, and the order in which the part takes its claims. -/

namespace Sys2Proof.Machine

/-! ## The Point Store (R2, R3) -/

/-- What a byte that nothing has written reads as; no host can observe it (R3; log 10). -/
def unwrittenByte : Byte := 0

/-- Canonical form: addresses rise strictly, and no cell holds what an unlisted address reads as. -/
abbrev Memory.wf (m : Memory) : Prop :=
  m.Pairwise (fun a b => a.1 < b.1) ∧ ∀ c ∈ m, c.2 ≠ unwrittenByte

/-- The byte at an address. -/
def readByte : Memory → Nat → Byte
  | [], _ => unwrittenByte
  | c :: rest, a => if c.1 = a then c.2 else readByte rest a

/-- A byte stored at an address, in canonical form. -/
def writeByte : Memory → Nat → Byte → Memory
  | [], a, b => if b = unwrittenByte then [] else [(a, b)]
  | c :: rest, a, b =>
    if a < c.1 then (if b = unwrittenByte then c :: rest else (a, b) :: c :: rest)
    else if a = c.1 then (if b = unwrittenByte then rest else (a, b) :: rest)
    else c :: writeByte rest a b

/-- Where a point of a block stands: the block's sixteen points follow one another (R2; log 10). -/
def pointAddress (b : BlockIndex) (offset : Nat) : Nat :=
  (b.val * Config.pointsPerBlock + offset) * Config.bytesPerPoint

/-- The location of point `i` of a generation: block floor(i/16) of its list, offset i mod 16 (R2). -/
def locate (blocks : List BlockIndex) (i : Nat) : Option Nat :=
  (blocks[i / Config.pointsPerBlock]?).map (fun b => pointAddress b (i % Config.pointsPerBlock))

/-- The point at a location. -/
def readPoint (m : Memory) (a : Nat) : Point :=
  ⟨wordOf (readByte m a) (readByte m (a + 1)), wordOf (readByte m (a + 2)) (readByte m (a + 3))⟩

/-- A point stored at a location. -/
def writePoint (m : Memory) (a : Nat) (p : Point) : Memory :=
  writeByte (writeByte (writeByte (writeByte m a (highByte p.x)) (a + 1) (lowByte p.x))
    (a + 2) (highByte p.y)) (a + 3) (lowByte p.y)

/-- `n` points of a generation from index `i` on; none when one of them has no location. -/
def readRun (m : Memory) (blocks : List BlockIndex) : Nat → Nat → Option (List Point)
  | _, 0 => some []
  | i, n + 1 =>
    match locate blocks i, readRun m blocks (i + 1) n with
    | some a, some ps => some (readPoint m a :: ps)
    | _, _ => none

/-- Points stored at consecutive indices of a generation from `i` on; none when one of them has no location. -/
def writeRun (blocks : List BlockIndex) : Memory → Nat → List Point → Option Memory
  | m, _, [] => some m
  | m, i, p :: ps =>
    match locate blocks i with
    | some a => writeRun blocks (writePoint m a p) (i + 1) ps
    | none => none

/-- All points of a generation record, in point order. -/
def GenRecord.points (m : Memory) (g : GenRecord) : Option (List Point) := readRun m g.blocks 0 g.pointCount

/-- Blocks that hold `n` points: ceil(n/16) (R5, R6). -/
def blocksFor (n : Nat) : Nat := (n + (Config.pointsPerBlock - 1)) / Config.pointsPerBlock

/-! ## Port sets -/

/-- Whether a port stands in a mask. -/
def PortSet.has (m : PortSet) (p : Port) : Bool := m.getLsbD p.val

/-- A mask names no port that another mask leaves out. -/
def PortSet.within (m e : PortSet) : Bool := m &&& ~~~e == 0

/-- The ports P0 to P3, in order. -/
def allPorts : List Port := List.finRange 4

/-- The mask of the ports that satisfy a test. -/
def portsWhere (f : Port → Bool) : PortSet :=
  allPorts.foldl (fun m p => if f p then m ||| (1 <<< p.val) else m) 0

/-! ## The tables of the state -/

/-- A client port. -/
def State.port (s : State) (p : Port) : PortState := s.ports[p]
/-- A client port replaced. -/
def State.setPort (s : State) (p : Port) (x : PortState) : State := { s with ports := s.ports.set p x }
/-- A client port changed. -/
def State.updPort (s : State) (p : Port) (f : PortState → PortState) : State := s.setPort p (f (s.port p))

/-- A slot record. -/
def State.slot (s : State) (k : SlotIndex) : SlotRecord := s.slots[k]
/-- A slot record replaced. -/
def State.setSlot (s : State) (k : SlotIndex) (x : SlotRecord) : State := { s with slots := s.slots.set k x }

/-- A generation record, absent when FREE. -/
def State.record (s : State) (r : RecordIndex) : Option GenRecord := s.records[r]
/-- A generation record replaced. -/
def State.setRecord (s : State) (r : RecordIndex) (g : Option GenRecord) : State :=
  { s with records := s.records.set r g }

/-- A build context, absent when FREE. -/
def State.context (s : State) (h : Handle) : Option BuildContext := s.contexts[h]
/-- A build context replaced. -/
def State.setContext (s : State) (h : Handle) (c : Option BuildContext) : State :=
  { s with contexts := s.contexts.set h c }

/-- A proposal entry, absent when FREE. -/
def State.proposal (s : State) (e : ProposalIndex) : Option Proposal := s.proposals[e]
/-- A proposal entry replaced. -/
def State.setProposal (s : State) (e : ProposalIndex) (q : Option Proposal) : State :=
  { s with proposals := s.proposals.set e q }

/-- A lease entry, absent when FREE. -/
def State.lease (s : State) (e : LeaseIndex) : Option Lease := s.leases[e]
/-- A lease entry replaced. -/
def State.setLease (s : State) (e : LeaseIndex) (l : Option Lease) : State := { s with leases := s.leases.set e l }

/-- A session entry. -/
def State.session (s : State) (p : Port) : SessionEntry := s.sessions[p]
/-- A session entry replaced; the entry hands its state to its port within the same event (R116). -/
def State.setSession (s : State) (p : Port) (x : SessionEntry) : State :=
  { s with sessions := s.sessions.set p x }.updPort p (fun y =>
    { y with attached := match x.state with
                         | .attached _ => true
                         | .detached | .ending _ => false })

/-- A lane's working record, absent when IDLE. -/
def State.lane (s : State) (l : LaneIndex) : Option LaneWork := s.lanes[l]
/-- A lane's working record replaced. -/
def State.setLane (s : State) (l : LaneIndex) (w : Option LaneWork) : State := { s with lanes := s.lanes.set l w }

/-- A field of the fuse array. -/
def State.fuse (s : State) (f : FuseField) : FuseCell := s.fuses[f.index]
/-- A field of the fuse array replaced. -/
def State.setFuse (s : State) (f : FuseField) (x : FuseCell) : State := { s with fuses := s.fuses.set f.index x }

/-- The shadow. While it holds no value every port behaves as an enabled port (R177), as under the defaults (log 19). -/
def State.inUse (s : State) : Shadow := s.shadow.getD Shadow.defaults

/-- The lowest FREE generation record (R7). -/
def State.freeRecordIndex (s : State) : Option RecordIndex := (List.finRange 128).find? (fun r => (s.record r).isNone)
/-- The lowest FREE build context (R64). -/
def State.freeHandle (s : State) : Option Handle := (List.finRange 4).find? (fun h => (s.context h).isNone)
/-- The lowest FREE proposal entry (R80). -/
def State.freeProposalIndex (s : State) : Option ProposalIndex :=
  (List.finRange 8).find? (fun e => (s.proposal e).isNone)
/-- The lowest FREE lease entry (R103). -/
def State.freeLeaseIndex (s : State) : Option LeaseIndex := (List.finRange 32).find? (fun e => (s.lease e).isNone)
/-- The lowest IDLE lane (R23). -/
def State.idleLane (s : State) : Option LaneIndex := (List.finRange 2).find? (fun l => (s.lane l).isNone)

/-- The generation number of a record; 0, which stands for no generation, when it is FREE (log 14). -/
def State.numberOf (s : State) (r : RecordIndex) : GenNumber :=
  match s.record r with
  | some g => g.number
  | none => 0

/-- The definition of a slot, absent when VACANT (Table 37). -/
def SlotState.definition : SlotState → Option TableDef
  | .vacant => none
  | .defined d | .live d _ | .retiring d => some d

/-- The current reference of a slot, present exactly while it is LIVE (R47). -/
def SlotState.current : SlotState → Option RecordIndex
  | .live _ r => some r
  | .vacant | .defined _ | .retiring _ => none

/-- Whether a slot is RETIRING. -/
def SlotState.isRetiring : SlotState → Bool
  | .retiring _ => true
  | .vacant | .defined _ | .live _ _ => false

/-- Whether a record is SUPERSEDED. -/
def GenState.isSuperseded : GenState → Bool
  | .superseded _ => true
  | .building _ _ | .pending _ | .current _ => false

/-- Whether a record is CURRENT. -/
def GenState.isCurrent : GenState → Bool
  | .current _ => true
  | .building _ _ | .pending _ | .superseded _ => false

/-- The idle deadline of a record, present while BUILDING (Table 11). -/
def GenState.deadline : GenState → Option Time
  | .building _ d => some d
  | .pending _ | .current _ | .superseded _ => none

/-- The checksum of a record, absent while BUILDING (Table 11). -/
def GenState.checksum : GenState → Option Word
  | .building _ _ => none
  | .pending c | .current c | .superseded c => some c

/-! ## Sessions (R116) -/

/-- The current session of a port, which it has exactly while it is ATTACHED. -/
def State.currentSession (s : State) (p : Port) : Option Session :=
  match (s.session p).state with
  | .attached n => some n
  | .detached | .ending _ => none

/-- The port's current session is this one. -/
def State.isUnder (s : State) (p : Port) (n : Session) : Bool := s.currentSession p == some n

/-- The port is ATTACHED. -/
def State.isAttached (s : State) (p : Port) : Bool := (s.currentSession p).isSome

/-- The lease a port holds on a slot under its current session (R27, R14). -/
def State.callersLease (s : State) (p : Port) (k : SlotIndex) : Option (LeaseIndex × Lease) :=
  (List.finRange 32).findSome? (fun e =>
    match s.lease e with
    | some l => if l.port = p ∧ l.slot = k ∧ s.isUnder p l.session then some (e, l) else none
    | none => none)

/-! ## Blocks, records and reference counts (R4 to R10) -/

/-- A return request: the blocks join the tail of the free list, and STORE_LOW is re-armed when the count reaches 64
(R6, R18). A return of no block is no request. -/
def State.returnBlocks (s : State) (bs : List BlockIndex) : State :=
  if bs.isEmpty then s
  else
    let fl := s.freeList ++ bs
    { s with freeList := fl, storeLowArmed := s.storeLowArmed || Config.storeLowRearm ≤ fl.length }

/-- Some record in use belongs to the slot. -/
def State.slotInUse (s : State) (k : SlotIndex) : Bool :=
  (List.finRange 128).any (fun r =>
    match s.record r with
    | some g => g.slot == k
    | none => false)

/-- A record is freed (R8): its blocks return, it becomes FREE, and a RETIRING slot whose last record it was becomes
VACANT with its definition cleared (R57). -/
def State.freeRecord (s : State) (r : RecordIndex) : State :=
  match s.record r with
  | none => s
  | some g =>
    let t := (s.returnBlocks g.blocks).setRecord r none
    if g.state.isSuperseded && (t.slot g.slot).state.isRetiring && !t.slotInUse g.slot then
      t.setSlot g.slot SlotRecord.vacant
    else t

/-- A reference is taken on a record (R9). -/
def State.raiseReference (s : State) (r : RecordIndex) : State :=
  match s.record r with
  | none => s
  | some g => s.setRecord r (some { g with refCount := g.refCount + 1 })

/-- A reference on a record ends; a SUPERSEDED record left with none is freed in the same event (R9, R10). -/
def State.dropReference (s : State) (r : RecordIndex) : State :=
  match s.record r with
  | none => s
  | some g =>
    let t := s.setRecord r (some { g with refCount := g.refCount - 1 })
    if g.state.isSuperseded && g.refCount - 1 == 0 then t.freeRecord r else t

/-- A record's state is replaced. -/
def State.setGenState (s : State) (r : RecordIndex) (x : GenState) : State :=
  match s.record r with
  | none => s
  | some g => s.setRecord r (some { g with state := x })

/-- A CURRENT record becomes SUPERSEDED, and is freed in the same event when no reference is held on it (R10). -/
def State.supersede (s : State) (r : RecordIndex) : State :=
  match s.record r with
  | none => s
  | some g =>
    let t := s.setGenState r (.superseded (g.state.checksum.getD 0))
    if g.refCount == 0 then t.freeRecord r else t

/-- A build is discarded (R63). -/
def State.discardBuild (s : State) (h : Handle) : State :=
  match s.context h with
  | none => s
  | some c =>
    let t := (s.freeRecord c.record).setContext h none
    t.setSlot c.slot { t.slot c.slot with build := none }

/-- A lease ends: its entry becomes FREE and its reference is dropped (R108, R110, R114). -/
def State.removeLease (s : State) (e : LeaseIndex) : State :=
  match s.lease e with
  | none => s
  | some l => (s.setLease e none).dropReference l.record

/-! ## Events (chapter 10) -/

/-- A record dropped after the lost byte of a DRAIN has begun is noted, since that byte cannot report it (R155). -/
def Txn.noteDrop (t : Txn) : Txn :=
  match t.phase, t.out with
  | .drainLost acc _, some _ => { t with phase := .drainLost acc true }
  | _, _ => t

/-- Arrival of an event record at a port (Table 86). -/
def PortState.receive (x : PortState) (e : EventRecord) : PortState :=
  if x.resetting then x
  else if x.events.length < Config.eventCapacity then ({ x with events := x.events ++ [e] }).reevaluate
  else
    ({ x with
        lost := true
        txn := x.txn.map Txn.noteDrop }).reevaluate

/-- A record is addressed to a port only while its session entry is ATTACHED (R163). -/
def State.deliverEvent (s : State) (p : Port) (e : EventRecord) : State :=
  if s.isAttached p then s.updPort p (fun x => x.receive e) else s

/-- One record delivered to every port that satisfies a test, in port order (log 21). -/
def State.deliverWhere (s : State) (f : Port → Bool) (e : EventRecord) : State :=
  allPorts.foldl (fun t p => if f p then t.deliverEvent p e else t) s

/-! ## Responses (R132, R152, R158) -/

/-- A teardown request is presented to the session table (R121, R134). -/
def State.presentRequest (s : State) (p : Port) : State := { s with requests := s.requests ++ [p] }

/-- The response of the port's command in execution arrives. With the discard mark set it is discarded, and a discarded
ATTACH response with status OK makes the port present a teardown request and become RESETTING (R125, R158). -/
def State.deliverResponse (s : State) (p : Port) (r : Response) : State :=
  match (s.port p).inExec with
  | none => s
  | some e =>
    if e.discard then
      if r.kind = .attach ∧ r.status = .ok then
        (s.updPort p (fun x =>
          { x with inExec := none, teardownOutstanding := true, resetting := true })).presentRequest p
      else s.updPort p (fun x => { x with inExec := none })
    else s.updPort p (fun x => ({ x with inExec := none, respQueue := x.respQueue ++ [r] }).reevaluate)

/-- What carrying out a control command comes to. -/
inductive CommandResult where
  /-- The Table Manager delivers a response at the end of the claim (R132). -/
  | answer (s : State) (status : Status) (payload : List Byte)
  /-- The command is handed over to the Option Fuse Array (R139). -/
  | handOver (s : State)
  | fault (e : Fault)

/-- A refusal: a status other than OK with an empty payload (R140, R186). -/
def refuse (s : State) (status : Status) : CommandResult := .answer s status []

/-! ## Claims and arbiters (chapter 8) -/

/-- The part runs: start-up is complete (R177). -/
def State.isRunning (s : State) : Bool := s.phase == .running

/-- The port is enabled by the value in use (R160). -/
def State.isEnabled (s : State) (p : Port) : Bool := PortSet.has s.inUse.portEnable p

/-- The control command the Table Manager is carrying out: a control command in execution that is no burn (R131, log 6). -/
def State.carrying (s : State) : Option Port :=
  allPorts.find? (fun p =>
    match (s.port p).inExec with
    | some e => !e.frame.kind.isLookup && !s.burn.any (fun b => b.port == p)
    | none => false)

/-- The Table Manager may take a presented claim (R134, first place). -/
def State.takesClaims (s : State) : Bool := s.isRunning && s.carrying.isNone

/-- The deadlines held against the Timer Base: builds, proposals, leases (R136). -/
def State.deadlines (s : State) : List Time :=
  s.records.toList.filterMap (fun g => g.bind (fun g => g.state.deadline))
  ++ s.proposals.toList.filterMap (fun q => q.map (·.deadline))
  ++ s.leases.toList.filterMap (fun l => l.map (·.expiry))

/-- A deadline is due from the moment the time reaches it (R136). -/
def State.isDue (s : State) (d : Time) : Bool := d ≤ s.time

/-- A due deadline whose 1 ms is over: its expiry can no longer be taken after anything else (R136, R137; log 4). -/
def State.overdue (s : State) : Bool := s.deadlines.any (fun d => d < s.time)

/-- The Table Manager may take a due expiry (R134, second place). -/
def State.takesExpiries (s : State) : Bool := s.takesClaims && s.requests.isEmpty

/-- A pending teardown of the port waits: its entry is ENDING with teardown pending set (R135). -/
def State.teardownWaits (s : State) (p : Port) : Bool :=
  match (s.session p).state with
  | .ending _ => (s.session p).teardownPending
  | .detached | .attached _ => false

/-- The pending teardown that is taken next: that of the lowest-numbered port (R135). -/
def State.teardownNext (s : State) : Option Port := allPorts.find? s.teardownWaits

/-- The Table Manager may take a pending teardown (R134, third place). -/
def State.takesTeardowns (s : State) : Bool := s.takesExpiries && !s.overdue

/-- The ports in the order an arbiter considers them from its pointer, P0 again after P3 (R23, R133). -/
def portsFrom (ptr : Port) : List Port := [ptr, ptr + 1, ptr + 2, ptr + 3]

/-- The port may pass its head command: enabled, NORMAL, nothing in execution (R130, R133). -/
def State.mayPass (s : State) (p : Port) : Bool :=
  s.isEnabled p && !(s.port p).resetting && (s.port p).inExec.isNone

/-- The port is eligible for the Table Manager (R133). -/
def State.controlEligible (s : State) (p : Port) : Bool :=
  s.mayPass p && (s.port p).cmdQueue.head?.any (fun f => !f.kind.isLookup)

/-- The port is eligible for a lane (R23). -/
def State.laneEligible (s : State) (p : Port) : Bool :=
  s.mayPass p && (s.port p).cmdQueue.head?.any (fun f => f.kind.isLookup)

/-- The port whose command the control arbiter chooses (R133). -/
def State.controlChoice (s : State) : Option Port := (portsFrom s.controlPtr).find? s.controlEligible

/-- The port to which the lane arbiter grants (R23). -/
def State.laneChoice (s : State) : Option Port := (portsFrom s.lanePtr).find? s.laneEligible

/-- The head command leaves the queue and becomes the port's command in execution (R130). -/
def State.passHead (s : State) (p : Port) : State :=
  s.updPort p (fun x =>
    match x.cmdQueue with
    | [] => x
    | f :: rest => { x with cmdQueue := rest, inExec := some ⟨f, false⟩ })

end Sys2Proof.Machine
end

