-- ==== Sys2Proof/Machine/Changes.lean ====
section
/-! DEFINITION. Opening, adopting and resolving a change (chapter 5), shared by CLOSE_BUILD, PROPOSE_RETIRE, APPROVE,
VETO, WITHDRAW and the proposal expiry. -/

namespace Sys2Proof.Machine

/-- The mask a slot's definition gives, empty for a VACANT slot. -/
def State.maskOf (s : State) (k : SlotIndex) (f : TableDef → PortSet) : PortSet :=
  match (s.slot k).state.definition with
  | some d => f d
  | none => 0

/-- The generation number of a change: that of its record, 0 for a RETIRE (R80). -/
def State.numberOfChange (s : State) : Change → GenNumber
  | .commit r => s.numberOf r
  | .retire => 0

/-- The adoption of a COMMIT on the slot (R54, R91): the record becomes CURRENT and the slot LIVE, a slot below
FIXED_SLOTS sets its latch (R58), and the previous CURRENT record is superseded. -/
def State.adoptCommit (s : State) (k : SlotIndex) (r : RecordIndex) : State :=
  let latch := (s.slot k).fixedLatch || k.val < s.inUse.fixedSlots
  match s.record r with
  | none => s
  | some g =>
    let t := s.setGenState r (.current (g.state.checksum.getD 0))
    match (s.slot k).state with
    | .defined d => t.setSlot k { s.slot k with state := .live d r, fixedLatch := latch }
    | .live d old => (t.setSlot k { s.slot k with state := .live d r, fixedLatch := latch }).supersede old
    | .vacant | .retiring _ => s

/-- The adoption of a RETIRE on the slot (R55, R92): a DEFINED slot becomes VACANT; a LIVE one becomes RETIRING and its
CURRENT record is superseded, which makes the slot VACANT when no record of it stays in use (R57). -/
def State.adoptRetire (s : State) (k : SlotIndex) : State :=
  match (s.slot k).state with
  | .defined _ => s.setSlot k SlotRecord.vacant
  | .live d r => (s.setSlot k { s.slot k with state := .retiring d }).supersede r
  | .vacant | .retiring _ => s

/-- The adoption of a change on the slot. -/
def State.adopt (s : State) (k : SlotIndex) : Change → State
  | .commit r => s.adoptCommit k r
  | .retire => s.adoptRetire k

/-- GENERATION_CHANGED to every attached port of a reader mask (R95). -/
def State.announceChange (s : State) (k : SlotIndex) (readers : PortSet) (n : GenNumber) : State :=
  s.deliverWhere (PortSet.has readers) ⟨.generationChanged, k, n, .zero, none⟩

/-- Some port of the approver mask other than the proposer has yet to approve at the opening (R52, R71). -/
def needsEntry (approvers : PortSet) (p : Port) : Bool := allPorts.any (fun q => PortSet.has approvers q && q != p)

/-- The approvals at the opening: the proposer's own, when it is in the captured set (R82 step 2). -/
def openingApprovals (approvers : PortSet) (p : Port) (n : Session) : Vector (Option Session) 4 :=
  if PortSet.has approvers p then (Vector.replicate 4 none).set p (some n) else Vector.replicate 4 none

/-- A change is opened on a slot by a port under its current session (R82): adopted at once when no approval is
outstanding (R84), or held in the lowest FREE entry, with PROPOSAL_OPENED to the other approvers (R83). -/
def State.openChange (s : State) (k : SlotIndex) (c : Change) (p : Port) (n : Session) : State × ProposalOutcome :=
  let approvers := s.maskOf k (·.approvers)
  let number := s.numberOfChange c
  if needsEntry approvers p then
    match s.freeProposalIndex with
    | none => (s, .pending)
    | some e =>
      let entry : Proposal :=
        { slot := k, change := c, proposer := p, session := n, proposerEnded := false, approvers := approvers,
          approvals := openingApprovals approvers p n, deadline := s.time + s.inUse.approvalWindow }
      let t := (s.setProposal e (some entry)).setSlot k { s.slot k with proposal := some e }
      (t.deliverWhere (fun q => PortSet.has approvers q && q != p)
        ⟨.proposalOpened, k, number, .ofChange c.isRetire, some p⟩, .pending)
  else ((s.adopt k c).announceChange k (s.maskOf k (·.readers)) number, .adopted)

/-- The effects of an outcome on the slot and its records (R90 step 2): R91, R92 for ADOPTED, R93 for the others. -/
def State.applyOutcome (s : State) (k : SlotIndex) (c : Change) : ProposalOutcome → State
  | .adopted => s.adopt k c
  | .rejected | .lapsed | .withdrawn =>
    match c with
    | .commit r => s.freeRecord r
    | .retire => s
  | .pending => s

/-- The port is the proposer, under the session of the opening, which has not ended since (R88, R94, R99). -/
def State.isProposer (s : State) (q : Proposal) (p : Port) : Bool :=
  q.proposer == p && s.isUnder p q.session && !q.proposerEnded

/-- A proposal resolves (R90): what the events need is noted, the effects are applied, the slot's reference and the
entry are cleared, PROPOSAL_RESOLVED is delivered (R94) and, for ADOPTED, GENERATION_CHANGED (R95). -/
def State.resolve (s : State) (e : ProposalIndex) (o : ProposalOutcome) : State :=
  match s.proposal e with
  | none => s
  | some q =>
    let readers := s.maskOf q.slot (·.readers)
    let number := s.numberOfChange q.change
    let t := s.applyOutcome q.slot q.change o
    let t := (t.setSlot q.slot { t.slot q.slot with proposal := none }).setProposal e none
    let t := t.deliverWhere (fun p => t.isProposer q p || PortSet.has q.approvers p)
      ⟨.proposalResolved, q.slot, number, .ofOutcome o, some q.proposer⟩
    match o with
    | .adopted => t.announceChange q.slot readers number
    | .rejected | .lapsed | .withdrawn | .pending => t

/-- Whether a port holds a recorded approval (R81). -/
def Proposal.hasApproval (q : Proposal) (p : Port) : Bool := (q.approvals[p]).isSome

/-- The ports of the captured set without a recorded approval (R81). -/
def Proposal.outstanding (q : Proposal) : List Port :=
  allPorts.filter (fun p => PortSet.has q.approvers p && !q.hasApproval p)

/-- A port's approval recorded under its session; a recorded one stays as it is (R86). -/
def Proposal.approve (q : Proposal) (p : Port) (n : Session) : Proposal :=
  if q.hasApproval p then q else { q with approvals := q.approvals.set p (some n) }

end Sys2Proof.Machine
end

