-- ==== Sys2Proof/Machine/Sessions.lean ====
section
/-! DEFINITION. Sessions: ATTACH, DETACH and the teardown they share with a port reset (chapter 7). -/

namespace Sys2Proof.Machine

/-- The number of a new session (R117). -/
def nextSession (last : Session) : Session := if last = 255 then 1 else last + 1

/-- The leases of a port, in ascending order of slot (R114). -/
def State.leasesOf (s : State) (p : Port) : List LeaseIndex :=
  (List.finRange 64).flatMap (fun k => (List.finRange 32).filter (fun e =>
    (s.lease e).any (fun l => l.port == p && l.slot == k)))

/-- The builds a port owns under a session, in ascending order of handle (R77). -/
def State.buildsOf (s : State) (p : Port) (n : Session) : List Handle :=
  (List.finRange 4).filter (fun h => (s.context h).any (fun c => c.owner == p && c.session == n))

/-- The proposals on which a port's approval is recorded under a session (R98). -/
def State.approvalsOf (s : State) (p : Port) (n : Session) : List ProposalIndex :=
  (List.finRange 8).filter (fun e => (s.proposal e).any (fun q => q.approvals[p] == some n))

/-- What the end of a port's session does to a proposal: an approval recorded under it is removed (R98), and a proposer
under it is no proposer any more (R99, R117). -/
def Proposal.endSession (p : Port) (n : Session) (q : Proposal) : Proposal :=
  { q with
    approvals := if q.approvals[p] = some n then q.approvals.set p none else q.approvals
    proposerEnded := q.proposerEnded || (q.proposer == p && q.session == n) }

/-- Steps 1 to 3 of the teardown of a port's session (R122): leases, builds, approvals. -/
def State.teardown (s : State) (p : Port) (n : Session) : State :=
  let t := (s.leasesOf p).foldl State.removeLease s
  let t := (t.buildsOf p n).foldl State.discardBuild t
  { t with proposals := t.proposals.map (fun q => q.map (Proposal.endSession p n)) }

/-- ATTACH as carried out (R118). -/
def attachBody (p : Port) (_f : Frame) (s : State) : CommandResult :=
  match (s.session p).state with
  | .attached _ | .ending _ => refuse s .alreadyAttached
  | .detached =>
    let n := nextSession (s.session p).last
    let v := s.inUse
    .answer (s.setSession p { state := .attached n, last := n, teardownPending := false }) .ok
      ([n, portByte p, countByte v.leaseLimit] ++ countBytes v.leasePeriod ++ countBytes v.approvalWindow
        ++ countBytes v.buildIdle)

/-- DETACH as carried out (R120): the entry is ENDING within the command, is torn down and becomes DETACHED. -/
def detachBody (p : Port) (_f : Frame) (s : State) : CommandResult :=
  match s.currentSession p with
  | none => refuse s .notAttached
  | some n =>
    let e := s.session p
    let t := (s.setSession p { e with state := .ending n }).teardown p n
    .answer (t.setSession p { e with state := .detached, teardownPending := false }) .ok
      [n, countByte (s.leasesOf p).length, countByte (s.buildsOf p n).length, countByte (s.approvalsOf p n).length]

end Sys2Proof.Machine
end

