-- ==== Sys2Proof/Machine/Claims.lean ====
section
/-! DEFINITION. The Table Manager's other claims: teardown requests, pending teardowns and expiries (chapters 4 to 8). -/

namespace Sys2Proof.Machine

/-- The session table signals to a port that its teardown is complete or that none remains: none is outstanding, and the
port is NORMAL once PRSTN is released (R121, R122, R159). -/
def State.signalTeardownDone (s : State) (p : Port) : State :=
  s.updPort p (fun x => { x with teardownOutstanding := false, resetting := x.resetting && x.prstnLow })

/-- A teardown request of a port is taken (R121). -/
def State.takeRequest (s : State) (p : Port) : State :=
  match (s.session p).state with
  | .attached n => s.setSession p { s.session p with state := .ending n, teardownPending := true }
  | .ending _ => s
  | .detached => s.signalTeardownDone p

/-- TEARDOWN_REQUEST (R121): the oldest request presented is taken. A request that is not the oldest is not taken now
(R134; log 2). -/
def execTeardownRequest (p : Port) (s : State) : Host.Outcome State Fault Refusal :=
  match s.takesClaims, s.requests with
  | true, q :: rest => if q = p then .next ({ s with requests := rest }.takeRequest p) else .next s
  | _, _ => .next s

/-- A pending teardown carried out (R122): the teardown of the ending session, the entry DETACHED, the signal. -/
def State.finishTeardown (s : State) (p : Port) : State :=
  match (s.session p).state with
  | .ending n =>
    let t := s.teardown p n
    (t.setSession p { t.session p with state := .detached, teardownPending := false }).signalTeardownDone p
  | .detached | .attached _ => s

/-- PENDING_TEARDOWN (R122, R135). Only the one of the lowest-numbered port is taken (log 2). -/
def execPendingTeardown (p : Port) (s : State) : Host.Outcome State Fault Refusal :=
  if s.takesTeardowns && s.teardownNext == some p then .next (s.finishTeardown p) else .next s

/-- The idle expiry of a build taken (R75): the build is discarded and its owner is told. -/
def State.expireBuild (s : State) (h : Handle) (b : BuildContext) : State :=
  let t := s.discardBuild h
  if t.isUnder b.owner b.session then
    t.deliverEvent b.owner ⟨.buildExpired, b.slot, s.numberOf b.record, .zero, none⟩
  else t

/-- The idle deadline of a build, held in its record (R73). -/
def State.idleDeadline (s : State) (b : BuildContext) : Option Time := (s.record b.record).bind (·.state.deadline)

/-- BUILD_IDLE_EXPIRY (R75). A deadline that is not due has no expiry (R136; log 2). -/
def execBuildIdleExpiry (h : Handle) (s : State) : Host.Outcome State Fault Refusal :=
  match s.context h with
  | some b =>
    if s.takesExpiries && (s.idleDeadline b).any s.isDue then .next (s.expireBuild h b) else .next s
  | none => .next s

/-- PROPOSAL_EXPIRY (R89): the proposal resolves LAPSED. A deadline that is not due has no expiry (R136; log 2). -/
def execProposalExpiry (e : ProposalIndex) (s : State) : Host.Outcome State Fault Refusal :=
  match s.proposal e with
  | some q => if s.takesExpiries && s.isDue q.deadline then .next (s.resolve e .lapsed) else .next s
  | none => .next s

/-- The expiry of a lease taken (R110): the lease ends and its holder is told. -/
def State.expireLease (s : State) (e : LeaseIndex) (l : Lease) : State :=
  let t := s.removeLease e
  if t.isUnder l.port l.session then
    t.deliverEvent l.port ⟨.leaseExpired, l.slot, s.numberOf l.record, .zero, none⟩
  else t

/-- LEASE_EXPIRY (R110). A deadline that is not due has no expiry (R136; log 2). -/
def execLeaseExpiry (e : LeaseIndex) (s : State) : Host.Outcome State Fault Refusal :=
  match s.lease e with
  | some l => if s.takesExpiries && s.isDue l.expiry then .next (s.expireLease e l) else .next s
  | none => .next s

end Sys2Proof.Machine
end

