-- ==== Sys2Proof/Machine/Builds.lean ====
section
/-! DEFINITION. Building a generation: OPEN_BUILD, APPEND_POINTS, CLOSE_BUILD, CANCEL_BUILD (chapter 4). -/

namespace Sys2Proof.Machine

/-- A record in use of the slot carries the number (R11). -/
def State.numberInUse (s : State) (k : SlotIndex) (n : GenNumber) : Bool :=
  (List.finRange 128).any (fun r =>
    match s.record r with
    | some g => g.slot == k && g.number == n
    | none => false)

/-- The number after another, 1 after 65535 (R11). -/
def nextNumber (n : GenNumber) : GenNumber := if n = 65535 then 1 else n + 1

/-- The first candidate from `n` on that no record in use of the slot carries (R11). A slot has at most 128 records,
so among 129 candidates one is free. -/
def State.assignNumber (s : State) (k : SlotIndex) : Nat → GenNumber → GenNumber
  | 0, n => n
  | fuel + 1, n => if s.numberInUse k n then s.assignNumber k fuel (nextNumber n) else n

/-- The number OPEN_BUILD assigns on a slot (R11). -/
def State.newNumber (s : State) (k : SlotIndex) : GenNumber := s.assignNumber k 128 (s.slot k).nextNumber

/-- A reserve request for `n` blocks that succeeds: they leave the head of the free list (R5). The blocks themselves are
`s.freeList.take n`. -/
def State.reserve (s : State) (n : Nat) : State := { s with freeList := s.freeList.drop n }

/-- STORE_LOW after a reserve that took the free count from `before` (R17). -/
def State.warnStoreLow (s : State) (before : Nat) : State :=
  if s.storeLowArmed && Config.storeLowThreshold ≤ before && s.freeList.length < Config.storeLowThreshold then
    { s.deliverWhere (PortSet.has s.inUse.definer)
        ⟨.storeLow, 0, BitVec.ofNat 16 s.freeList.length, .zero, none⟩ with storeLowArmed := false }
  else s

/-- The effects of an accepted OPEN_BUILD (R64): the lowest context and record, blocks from the head of the free list,
a number, the idle deadline, and STORE_LOW when the reserve fires it. -/
def State.openBuild (s : State) (p : Port) (n : Session) (a : OpenArgs) (h : Handle) (r : RecordIndex) : State :=
  let k := blocksFor a.declared
  let number := s.newNumber a.slot
  let g : GenRecord :=
    { slot := a.slot, number := number, state := .building a.declared (s.time + s.inUse.buildIdle),
      interpolation := a.interpolation, extrapolation := a.extrapolation, pointCount := 0,
      blocks := s.freeList.take k, refCount := 0 }
  let t := (((s.reserve k).setRecord r (some g)).setContext h
    (some { slot := a.slot, record := r, owner := p, session := n })).setSlot a.slot
      { s.slot a.slot with nextNumber := nextNumber number, build := some h }
  t.warnStoreLow s.freeList.length

/-- OPEN_BUILD as carried out (R64). -/
def openBuildBody (p : Port) (f : Frame) (s : State) : CommandResult :=
  match s.currentSession p with
  | none => refuse s .notAttached
  | some n =>
    match openArgs f.payload with
    | none => refuse s .badArgument
    | some a =>
      match (s.slot a.slot).state with
      | .vacant | .retiring _ => refuse s .slotState
      | .defined d | .live d _ =>
        if !PortSet.has d.builders p then refuse s .noAccess
        else if (s.slot a.slot).fixedLatch then refuse s .slotFixed
        else if (s.slot a.slot).build.isSome then refuse s .buildOpen
        else if (s.slot a.slot).proposal.isSome then refuse s .proposalOpen
        else match s.freeHandle with
        | none => refuse s .noContext
        | some h =>
          match s.freeRecordIndex with
          | none => refuse s .noRecord
          | some r =>
            if s.freeList.length < blocksFor a.declared then refuse s .noSpace
            else
              .answer (s.openBuild p n a h r) .ok
                ([BitVec.ofNat 8 h.val] ++ wordBytes (s.newNumber a.slot))

/-- The handle check: the context is OPEN under the issuing port and its current session (R62). -/
def State.buildOf (s : State) (p : Port) (h : Handle) : Option BuildContext :=
  (s.context h).filter (fun c => c.owner == p && s.isUnder p c.session)

/-- The idle deadline of a build restarts (R74). -/
def State.restartIdle (s : State) (r : RecordIndex) : State :=
  match s.record r with
  | none => s
  | some g =>
    match g.state with
    | .building d _ => s.setRecord r (some { g with state := .building d (s.time + s.inUse.buildIdle) })
    | .pending _ | .current _ | .superseded _ => s

/-- The x values rise strictly along a list of points, as signed numbers (R66 step 5). -/
def rising : List Point → Bool
  | a :: b :: rest => decide (a.x.toInt < b.x.toInt) && rising (b :: rest)
  | [_] | [] => true

/-- APPEND_POINTS as carried out: the checks of R66, the effects of R67. -/
def appendPointsBody (p : Port) (f : Frame) (s : State) : CommandResult :=
  if !s.isAttached p then refuse s .notAttached
  else match appendArgs f.payload with
  | none => refuse s .badArgument
  | some (h, ps) =>
    match s.buildOf p h with
    | none => refuse s .buildUnknown
    | some b =>
      match s.record b.record with
      | none => .fault .pointNotLocated
      | some g =>
        match g.state with
        | .pending _ | .current _ | .superseded _ => .fault .pointNotLocated
        | .building declared _ =>
          let c := g.pointCount
          if declared < c + ps.length then refuse (s.restartIdle b.record) .buildOverrun
          else match readRun s.store g.blocks (c - 1) (min c 1) with
          | none => .fault .pointNotLocated
          | some previous =>
            if !rising (previous ++ ps) then refuse (s.restartIdle b.record) .notMonotonic
            else match writeRun g.blocks s.store c ps with
            | none => .fault .pointNotLocated
            | some store =>
              let t := { s with store := store }.setRecord b.record (some { g with pointCount := c + ps.length })
              .answer (t.restartIdle b.record) .ok (countBytes (c + ps.length))

/-- Steps 1 to 3 of an accepted CLOSE_BUILD (R70): the block list is trimmed to the points appended, the checksum is
stored, and the context and the slot's build reference are cleared. -/
def State.finishBuild (s : State) (h : Handle) (b : BuildContext) (g : GenRecord) (checksum : Word) : State :=
  let kept := blocksFor g.pointCount
  let t := ((s.setRecord b.record (some { g with blocks := g.blocks.take kept, state := .pending checksum })).returnBlocks
    (g.blocks.drop kept)).setContext h none
  t.setSlot b.slot { t.slot b.slot with build := none }

/-- CLOSE_BUILD as carried out: the checks of R68, the effects of R70 and the hand-over of R71. -/
def closeBuildBody (p : Port) (f : Frame) (s : State) : CommandResult :=
  match s.currentSession p with
  | none => refuse s .notAttached
  | some n =>
    match closeArgs f.payload with
    | none => refuse s .badArgument
    | some (h, expected) =>
      match s.buildOf p h with
      | none => refuse s .buildUnknown
      | some b =>
        match s.record b.record with
        | none => .fault .pointNotLocated
        | some g =>
          if g.pointCount < 2 then refuse (s.restartIdle b.record) .tooFewPoints
          else match g.points s.store with
          | none => .fault .pointNotLocated
          | some ps =>
            if checksumOf ps ≠ expected then refuse (s.discardBuild h) .checksumMismatch
            else if needsEntry (s.maskOf b.slot (·.approvers)) p && s.freeProposalIndex.isNone then
              refuse (s.restartIdle b.record) .proposalFull
            else
              let (t, o) := (s.finishBuild h b g (checksumOf ps)).openChange b.slot (.commit b.record) p n
              .answer t .ok ([o.code] ++ wordBytes g.number)

/-- CANCEL_BUILD as carried out (R72). -/
def cancelBuildBody (p : Port) (f : Frame) (s : State) : CommandResult :=
  if !s.isAttached p then refuse s .notAttached
  else match handleArg f.payload with
  | none => refuse s .badArgument
  | some h =>
    match s.buildOf p h with
    | none => refuse s .buildUnknown
    | some b => .answer (s.discardBuild h) .ok (wordBytes (s.numberOf b.record))

end Sys2Proof.Machine
end

