-- ==== Sys2Proof/Machine/Fuses.lean ====
section
/-! DEFINITION. Option fuses: READ_OPTIONS, PROGRAM_OPTION, CLOSE_PROVISIONING, the end of a burn, and the loading of
the shadow (chapter 11). -/

namespace Sys2Proof.Machine

/-- The array state of a field (Table 90); BURNING while its burn is in progress. -/
def State.fuseState (s : State) (f : FuseField) : FuseState :=
  if s.burn.any (fun b => b.field == f) then .burning
  else if (s.fuse f).start && (s.fuse f).completion then .programmed
  else if (s.fuse f).start then .spoiled
  else .blank

/-- The default of a field, as PROGRAM_OPTION writes a value (Table 91). -/
def FuseField.default : FuseField → Word
  | .portEnable | .definer => 0x000F
  | .approvalWindow => BitVec.ofNat 16 Config.defaultApprovalWindow
  | .leasePeriod => BitVec.ofNat 16 Config.defaultLeasePeriod
  | .buildIdle => BitVec.ofNat 16 Config.defaultBuildIdle
  | .leaseLimit => BitVec.ofNat 16 Config.defaultLeaseLimit
  | .fixedSlots => BitVec.ofNat 16 Config.defaultFixedSlots
  | .warmRetain => 1
  | .provisionClosed => 0

/-- The value a field loads into the shadow: its own when PROGRAMMED, else its default (R171). -/
def State.loadValue (s : State) (f : FuseField) : Word :=
  if s.fuseState f = .programmed then (s.fuse f).cells else f.default

/-- The shadow as a cold start-up loads it from the array (R171). -/
def State.loadShadow (s : State) : Shadow :=
  { portEnable := (s.loadValue .portEnable).setWidth 4
    definer := (s.loadValue .definer).setWidth 4
    approvalWindow := (s.loadValue .approvalWindow).toNat
    leasePeriod := (s.loadValue .leasePeriod).toNat
    buildIdle := (s.loadValue .buildIdle).toNat
    leaseLimit := (s.loadValue .leaseLimit).toNat
    fixedSlots := (s.loadValue .fixedSlots).toNat
    warmRetain := s.loadValue .warmRetain == 1
    provisionClosed := s.loadValue .provisionClosed == 1 }

/-- A value in use as READ_OPTIONS writes it (R186). -/
def Shadow.value (v : Shadow) : FuseField → Word
  | .portEnable => v.portEnable.setWidth 16
  | .definer => v.definer.setWidth 16
  | .approvalWindow => BitVec.ofNat 16 v.approvalWindow
  | .leasePeriod => BitVec.ofNat 16 v.leasePeriod
  | .buildIdle => BitVec.ofNat 16 v.buildIdle
  | .leaseLimit => BitVec.ofNat 16 v.leaseLimit
  | .fixedSlots => BitVec.ofNat 16 v.fixedSlots
  | .warmRetain => if v.warmRetain then 1 else 0
  | .provisionClosed => if v.provisionClosed then 1 else 0

/-- One field of the READ_OPTIONS report: array state, array value, value in use (Table 97). -/
def State.fuseItems (s : State) (f : FuseField) : List Byte :=
  [(s.fuseState f).code] ++ wordBytes (if s.fuseState f = .programmed then (s.fuse f).cells else 0)
    ++ wordBytes (s.inUse.value f)

/-- The READ_OPTIONS report (R175, Table 97). -/
def State.optionsReport (s : State) : List Byte :=
  FuseField.all.flatMap s.fuseItems ++ [match s.burn with
    | some b => b.field.code
    | none => 0x00]

/-- READ_OPTIONS as carried out (R175). -/
def readOptionsBody (_f : Frame) (s : State) : CommandResult := .answer s .ok s.optionsReport

/-- The hand-over to the Option Fuse Array: the burn is recorded and the field's start marker is burned (R173). -/
def State.startBurn (s : State) (f : FuseField) (v : Word) (p : Port) : State :=
  { s.setFuse f { s.fuse f with start := true } with burn := some { field := f, value := v, port := p } }

/-- PROGRAM_OPTION as carried out at the Table Manager (R172, R173). -/
def programOptionBody (p : Port) (f : Frame) (s : State) : CommandResult :=
  if !s.isAttached p then refuse s .notAttached
  else match optionArgs f.payload with
  | none => refuse s .badArgument
  | some (field, v) =>
    if s.fuseState .provisionClosed = .programmed then refuse s .provisioningClosed
    else if s.fuseState field = .programmed then refuse s .fuseSet
    else if s.fuseState field = .spoiled then refuse s .fuseSpoiled
    else if s.burn.isSome then refuse s .fuseBusy
    else .handOver (s.startBurn field v p)

/-- CLOSE_PROVISIONING as carried out at the Table Manager (R174). -/
def closeProvisioningBody (p : Port) (_f : Frame) (s : State) : CommandResult :=
  if !s.isAttached p then refuse s .notAttached
  else if s.fuseState .provisionClosed = .programmed then refuse s .provisioningClosed
  else if s.fuseState .provisionClosed = .spoiled then refuse s .fuseSpoiled
  else if s.burn.isSome then refuse s .fuseBusy
  else .handOver (s.startBurn .provisionClosed 1 p)

/-- The payload of the response at the end of a burn: field and value of a PROGRAM_OPTION, nothing for
CLOSE_PROVISIONING (R173, R174, Table 97). -/
def burnPayload (b : Burn) : List Byte :=
  if b.field = .provisionClosed then [] else [b.field.code] ++ wordBytes b.value

/-- The end of a burn (R173): the field is PROGRAMMED, no burn is in progress and the response is delivered. -/
def State.completeBurn (s : State) (b : Burn) : State :=
  let t := { s.setFuse b.field { start := true, completion := true, cells := b.value } with burn := none }
  match (s.port b.port).inExec with
  | some e => t.deliverResponse b.port ⟨e.frame.kind, e.frame.tag, .ok, burnPayload b⟩
  | none => t

/-- BURN_COMPLETION (R173). With no burn in progress there is none to end (log 2). -/
def execBurnCompletion (s : State) : Host.Outcome State Fault Refusal :=
  match s.burn with
  | some b => .next (s.completeBurn b)
  | none => .next s

end Sys2Proof.Machine
end

