-- ==== Sys2Proof/Machine/Leases.lean ====
section
/-! DEFINITION. Leases: HOLD, RENEW, RELEASE (chapter 6). -/

namespace Sys2Proof.Machine

/-- The leases in use that satisfy a test. -/
def State.leasesWhere (s : State) (f : Lease → Bool) : List LeaseIndex :=
  (List.finRange 32).filter (fun e => (s.lease e).any f)

/-- HOLD as carried out (R104, R105). The two bounds of R102 are checked over the port's entries whatever session they
carry, which for an attached port is its current one (R122; log 20). -/
def holdBody (p : Port) (f : Frame) (s : State) : CommandResult :=
  match s.currentSession p with
  | none => refuse s .notAttached
  | some n =>
    match slotArg f.payload with
    | none => refuse s .badArgument
    | some k =>
      match (s.slot k).state with
      | .vacant | .defined _ | .retiring _ => refuse s .notLive
      | .live d r =>
        if !PortSet.has d.readers p then refuse s .noAccess
        else if !(s.leasesWhere (fun l => l.port == p && l.slot == k)).isEmpty then refuse s .leaseHeld
        else if s.inUse.leaseLimit ≤ (s.leasesWhere (fun l => l.port == p)).length then refuse s .leaseLimitReached
        else match s.freeLeaseIndex with
        | none => refuse s .leaseFull
        | some e =>
          let l : Lease :=
            { port := p, session := n, slot := k, record := r, expiry := s.time + s.inUse.leasePeriod }
          .answer ((s.setLease e (some l)).raiseReference r) .ok (wordBytes (s.numberOf r))

/-- RENEW as carried out (R107). -/
def renewBody (p : Port) (f : Frame) (s : State) : CommandResult :=
  if !s.isAttached p then refuse s .notAttached
  else match slotArg f.payload with
  | none => refuse s .badArgument
  | some k =>
    match s.callersLease p k with
    | none => refuse s .noLease
    | some (e, l) =>
      .answer (s.setLease e (some { l with expiry := s.time + s.inUse.leasePeriod })) .ok
        (wordBytes (s.numberOf l.record) ++ [flagByte ((s.slot k).state.current == some l.record)])

/-- RELEASE as carried out (R108). -/
def releaseBody (p : Port) (f : Frame) (s : State) : CommandResult :=
  if !s.isAttached p then refuse s .notAttached
  else match slotArg f.payload with
  | none => refuse s .badArgument
  | some k =>
    match s.callersLease p k with
    | none => refuse s .noLease
    | some (e, l) => .answer (s.removeLease e) .ok (wordBytes (s.numberOf l.record))

end Sys2Proof.Machine
end

