-- ==== Sys2Proof/Machine/Proposals.lean ====
section
/-! DEFINITION. Acting on an open proposal: APPROVE, VETO, WITHDRAW (chapter 5). -/

namespace Sys2Proof.Machine

/-- The open proposal that an APPROVE or VETO of a port acts on, with the port's current session, or the status of the
first failing check (R85). -/
def State.approverChecks (s : State) (p : Port) (payload : List Byte) :
    Except Status (Session × ProposalIndex × Proposal) :=
  match s.currentSession p with
  | none => .error .notAttached
  | some n =>
    match slotNumberArgs payload with
    | none => .error .badArgument
    | some (k, number) =>
      match (s.slot k).proposal with
      | none => .error .noProposal
      | some e =>
        match s.proposal e with
        | none => .error .noProposal
        | some q =>
          if !PortSet.has q.approvers p then .error .notApprover
          else if number ≠ s.numberOfChange q.change then .error .staleProposal
          else .ok (n, e, q)

/-- APPROVE as carried out (R85, R86). -/
def approveBody (p : Port) (f : Frame) (s : State) : CommandResult :=
  match s.approverChecks p f.payload with
  | .error st => refuse s st
  | .ok (n, e, q) =>
    let t := s.setProposal e (some (q.approve p n))
    let left := (q.approve p n).outstanding.length
    if left = 0 then .answer (t.resolve e .adopted) .ok [ProposalOutcome.adopted.code, 0x00]
    else .answer t .ok [ProposalOutcome.pending.code, countByte left]

/-- VETO as carried out (R85, R87). -/
def vetoBody (p : Port) (f : Frame) (s : State) : CommandResult :=
  match s.approverChecks p f.payload with
  | .error st => refuse s st
  | .ok (_, e, _) => .answer (s.resolve e .rejected) .ok [ProposalOutcome.rejected.code]

/-- WITHDRAW as carried out (R88, R99). -/
def withdrawBody (p : Port) (f : Frame) (s : State) : CommandResult :=
  if !s.isAttached p then refuse s .notAttached
  else match slotArg f.payload with
  | none => refuse s .badArgument
  | some k =>
    match (s.slot k).proposal with
    | none => refuse s .noProposal
    | some e =>
      match s.proposal e with
      | none => refuse s .noProposal
      | some q =>
        if !s.isProposer q p then refuse s .notProposer
        else
          .answer (s.resolve e .withdrawn) .ok
            ([ProposalOutcome.withdrawn.code] ++ wordBytes (s.numberOfChange q.change))

end Sys2Proof.Machine
end

