-- ==== Sys2Proof/Machine/Slots.lean ====
section
/-! DEFINITION. Table slots: DEFINE_TABLE, TABLE_INFO, PROPOSE_RETIRE (chapter 3). -/

namespace Sys2Proof.Machine

/-- DEFINE_TABLE as carried out: the checks of R49, the effects of R50. -/
def defineTableBody (p : Port) (f : Frame) (s : State) : CommandResult :=
  if !s.isAttached p then refuse s .notAttached
  else match defineArgs f.payload with
  | none => refuse s .badArgument
  | some a =>
    let enabled := s.inUse.portEnable
    if a.builders = 0 ∨ ¬ (PortSet.within a.readers enabled ∧ PortSet.within a.builders enabled
        ∧ PortSet.within a.approvers enabled) then refuse s .badArgument
    else if (s.slot a.slot).state ≠ .vacant then refuse s .slotState
    else if !PortSet.has s.inUse.definer p then refuse s .noAccess
    else
      .answer (s.setSlot a.slot
        { state := .defined { readers := a.readers, builders := a.builders, approvers := a.approvers, definer := p },
          nextNumber := 1, build := none, proposal := none, fixedLatch := false }) .ok [slotByte a.slot]

/-- The masks and the definer of TABLE_INFO, with the fillers of a VACANT slot (R186). -/
def definitionItems (k : SlotRecord) : List Byte :=
  match k.state.definition with
  | some d => [maskByte d.readers, maskByte d.builders, maskByte d.approvers, portByte d.definer]
  | none => [0x00, 0x00, 0x00, 0xFF]

/-- The current generation of TABLE_INFO, with the fillers of a slot that is not LIVE (R186). -/
def State.currentItems (s : State) (k : SlotRecord) : List Byte :=
  match k.state.current.bind s.record with
  | some g => wordBytes g.number ++ countBytes g.pointCount ++ [g.interpolation.code, g.extrapolation.code]
  | none => [0x00, 0x00, 0x00, 0x00, 0x00, 0x00]

/-- The proposal of TABLE_INFO, with the fillers of a slot without one (R186). -/
def State.proposalItems (s : State) (k : SlotRecord) : List Byte :=
  match k.proposal.bind s.proposal with
  | some q =>
    [changeCode q.change.isRetire] ++ wordBytes (s.numberOfChange q.change) ++ [maskByte (portsWhere q.hasApproval)]
  | none => [0x00, 0x00, 0x00, 0x00]

/-- The caller's lease of TABLE_INFO, 0 when it holds none (R186). -/
def State.leaseItems (s : State) (p : Port) (k : SlotIndex) : List Byte :=
  match s.callersLease p k with
  | some (_, l) => wordBytes (s.numberOf l.record)
  | none => [0x00, 0x00]

/-- The TABLE_INFO report (Table 40, Table 97). -/
def State.tableReport (s : State) (p : Port) (k : SlotIndex) : List Byte :=
  let r := s.slot k
  [r.state.code] ++ definitionItems r ++ s.currentItems r ++ [flagByte r.build.isSome] ++ s.proposalItems r
    ++ s.leaseItems p k ++ [flagByte r.fixedLatch]

/-- TABLE_INFO as carried out (R51). -/
def tableInfoBody (p : Port) (f : Frame) (s : State) : CommandResult :=
  if !s.isAttached p then refuse s .notAttached
  else match slotArg f.payload with
  | none => refuse s .badArgument
  | some k => .answer s .ok (s.tableReport p k)

/-- PROPOSE_RETIRE as carried out: the checks of R52, the opening of R53. -/
def proposeRetireBody (p : Port) (f : Frame) (s : State) : CommandResult :=
  match s.currentSession p with
  | none => refuse s .notAttached
  | some n =>
    match slotArg f.payload with
    | none => refuse s .badArgument
    | some k =>
      match (s.slot k).state with
      | .vacant | .retiring _ => refuse s .slotState
      | .defined d | .live d _ =>
        if !PortSet.has d.builders p then refuse s .noAccess
        else if (s.slot k).fixedLatch then refuse s .slotFixed
        else if (s.slot k).build.isSome then refuse s .buildOpen
        else if (s.slot k).proposal.isSome then refuse s .proposalOpen
        else if needsEntry d.approvers p && s.freeProposalIndex.isNone then refuse s .proposalFull
        else
          let (t, o) := s.openChange k .retire p n
          .answer t .ok [o.code]

end Sys2Proof.Machine
end

