-- ==== Sys2Proof/Machine/Store.lean ====
section
/-! DEFINITION. Store reports: STORE_INFO, READ_POINTS (chapter 1). -/

namespace Sys2Proof.Machine

/-- How many entries of a table are FREE. -/
def freeCount {α : Type} (xs : List (Option α)) : Nat := (xs.filter Option.isNone).length

/-- The STORE_INFO report (Table 16, Table 97). -/
def State.storeReport (s : State) : List Byte :=
  countBytes s.freeList.length
    ++ [countByte (freeCount s.records.toList), countByte (freeCount s.contexts.toList),
        countByte (freeCount s.proposals.toList), countByte (freeCount s.leases.toList), flagByte s.storeLowArmed]

/-- STORE_INFO as carried out (R13). -/
def storeInfoBody (_f : Frame) (s : State) : CommandResult := .answer s .ok s.storeReport

/-- The record a READ_POINTS selects, or the status of the first failing check among steps 3 to 5 of R15. -/
def State.selectRecord (s : State) (p : Port) (k : SlotIndex) (sel : Selector) : Except Status RecordIndex :=
  match sel with
  | .current =>
    match (s.slot k).state with
    | .live d r => if PortSet.has d.readers p then .ok r else .error .noAccess
    | .vacant | .defined _ | .retiring _ => .error .notLive
  | .leased =>
    match (s.slot k).state.definition with
    | none => .error .slotState
    | some d =>
      if !PortSet.has d.readers p then .error .noAccess
      else match s.callersLease p k with
      | some (_, l) => .ok l.record
      | none => .error .noLease
  | .pending =>
    match (s.slot k).state.definition with
    | none => .error .slotState
    | some d =>
      if !PortSet.has d.approvers p && !PortSet.has d.builders p then .error .noAccess
      else match ((s.slot k).proposal.bind s.proposal).map Proposal.change with
      | some (.commit r) => .ok r
      | some .retire | none => .error .noProposal

/-- READ_POINTS as carried out (R14, R15): the points are read from the record selected, each located by R2. -/
def readPointsBody (p : Port) (f : Frame) (s : State) : CommandResult :=
  if !s.isAttached p then refuse s .notAttached
  else match readArgs f.payload with
  | none => refuse s .badArgument
  | some a =>
    match s.selectRecord p a.slot a.selector with
    | .error st => refuse s st
    | .ok r =>
      match s.record r with
      | none => .fault .pointNotLocated
      | some g =>
        if g.pointCount < a.index + a.count then refuse s .badArgument
        else match readRun s.store g.blocks a.index a.count with
        | none => .fault .pointNotLocated
        | some ps =>
          .answer s .ok (wordBytes g.number ++ countBytes g.pointCount ++ wordBytes (g.state.checksum.getD 0)
            ++ [countByte ps.length] ++ ps.flatMap Point.bytes)

end Sys2Proof.Machine
end

