-- ==== Sys2Proof/Machine/Control.lean ====
section
/-! DEFINITION. The choice of a control command (R133, R134) and the rows that carry the control commands out. -/

namespace Sys2Proof.Machine

/-! ## Commands that may be taken before a pending teardown -/

/-- The slot of a command that may meet a pending teardown: the one its payload names, or that of the build it closes. -/
def State.slotConcerned (s : State) (f : Frame) : Option SlotIndex :=
  match f.kind with
  | .tableInfo | .proposeRetire | .approve => f.payload.head?.bind slotOf
  | .closeBuild => ((f.payload.head?.bind handleOf).bind s.context).map (·.slot)
  | .attach | .detach | .defineTable | .storeInfo | .openBuild | .appendPoints | .cancelBuild | .veto | .withdraw | .hold
  | .renew | .release | .lookup | .lookupBatch | .readPoints | .readOptions | .programOption | .closeProvisioning => none

/-- The port has a lease on the slot, or a recorded approval on the proposal there. -/
def State.leasesOrApproves (s : State) (p : Port) (k : SlotIndex) : Bool :=
  (List.finRange 32).any (fun e => (s.lease e).any (fun l => l.port == p && l.slot == k))
    || (List.finRange 8).any (fun e => (s.proposal e).any (fun q => q.slot == k && (q.approvals[p]).isSome))

/-- The port owns a build on the slot. -/
def State.buildsOn (s : State) (p : Port) (k : SlotIndex) : Bool :=
  (List.finRange 4).any (fun h => (s.context h).any (fun c => c.owner == p && c.slot == k))

/-- The answer reports an adoption (R53, R71, R86). -/
def CommandResult.isAdoption : CommandResult → Bool
  | .answer _ st payload => decide (st = .ok) && payload.head? == some ProposalOutcome.adopted.code
  | .handOver _ | .fault _ => false

/-- The command of port `p`, carried out now, makes an adoption (R91, R92). -/
def State.adoptsNow (s : State) (p : Port) (f : Frame) : Bool :=
  match f.kind with
  | .approve => (approveBody p f s).isAdoption
  | .closeBuild => (closeBuildBody p f s).isAdoption
  | .proposeRetire => (proposeRetireBody p f s).isAdoption
  | .attach | .detach | .defineTable | .tableInfo | .storeInfo | .openBuild | .appendPoints | .cancelBuild | .veto
  | .withdraw | .hold | .renew | .release | .lookup | .lookupBatch | .readPoints | .readOptions | .programOption
  | .closeProvisioning => false

/-- A command that the spec has taken before or after the pending teardown of port `q`: an adoption on a slot that `q`
leases or whose proposal `q` has approved (R98, R121; R126, Table 67), or a TABLE_INFO on a slot from which the teardown
removes something (R51). -/
def State.meetsTeardown (s : State) (p : Port) (f : Frame) (q : Port) : Bool :=
  (s.slotConcerned f).any (fun k =>
    (decide (f.kind = .tableInfo) && (s.leasesOrApproves q k || s.buildsOn q k))
      || (s.adoptsNow p f && s.leasesOrApproves q k))

/-! ## The choice -/

/-- The Table Manager may take this control command of port `p` (R134, fourth place). Every pending teardown goes before
it, but for those that it meets, which may be taken before it or after it (R126; log 23). -/
def State.takesCommand (s : State) (p : Port) (f : Frame) : Bool :=
  s.takesTeardowns && allPorts.all (fun q => !s.teardownWaits q || s.meetsTeardown p f q)

/-- The head command of the port, when the control arbiter takes it now (R133, R134). -/
def State.nextCommand (s : State) (p : Port) : Option Frame :=
  if s.controlChoice == some p then (s.port p).cmdQueue.head?.filter (s.takesCommand p) else none

/-- The command is taken: it passes into execution and the pointer moves past its port (R133). -/
def State.takeCommand (s : State) (p : Port) : State := { s.passHead p with controlPtr := p + 1 }

/-- The control command of this kind that the Table Manager carries out for the port in this step, with the state in
which it is in execution: the one it took at a port reset (log 6), or the one the arbiter gives it now. -/
def State.claimCommand (s : State) (p : Port) (k : CommandKind) : Option (Frame × State) :=
  match s.carrying with
  | some q =>
    match (s.port p).inExec with
    | some e => if q = p ∧ e.frame.kind = k then some (e.frame, s) else none
    | none => none
  | none =>
    match s.nextCommand p with
    | some f => if f.kind = k then some (f, s.takeCommand p) else none
    | none => none

/-- A control command of a port carried out whole, its response delivered at the end of the claim (R132). When it is
not the command that the part would carry out, nothing happens (log 2). -/
def controlCommand (p : Port) (k : CommandKind) (body : Frame → State → CommandResult) (s : State) :
    Host.Outcome State Fault Refusal :=
  match s.claimCommand p k with
  | none => .next s
  | some (f, t) =>
    match body f t with
    | .answer u st payload => .next (u.deliverResponse p ⟨f.kind, f.tag, st, payload⟩)
    | .handOver u => .next u
    | .fault e => .fault e

/-! ## Sessions -/

/-- ATTACH (R118). -/
def execAttach (p : Port) (s : State) : Host.Outcome State Fault Refusal :=
  controlCommand p .attach (attachBody p) s

/-- DETACH (R120). -/
def execDetach (p : Port) (s : State) : Host.Outcome State Fault Refusal :=
  controlCommand p .detach (detachBody p) s

/-! ## Slots -/

/-- DEFINE_TABLE (R49, R50). -/
def execDefineTable (p : Port) (s : State) : Host.Outcome State Fault Refusal :=
  controlCommand p .defineTable (defineTableBody p) s

/-- TABLE_INFO (R51). -/
def execTableInfo (p : Port) (s : State) : Host.Outcome State Fault Refusal :=
  controlCommand p .tableInfo (tableInfoBody p) s

/-- PROPOSE_RETIRE (R52, R53). -/
def execProposeRetire (p : Port) (s : State) : Host.Outcome State Fault Refusal :=
  controlCommand p .proposeRetire (proposeRetireBody p) s

/-! ## The Point Store -/

/-- STORE_INFO (R13). -/
def execStoreInfo (p : Port) (s : State) : Host.Outcome State Fault Refusal :=
  controlCommand p .storeInfo storeInfoBody s

/-- READ_POINTS (R14, R15). -/
def execReadPoints (p : Port) (s : State) : Host.Outcome State Fault Refusal :=
  controlCommand p .readPoints (readPointsBody p) s

/-! ## Builds -/

/-- OPEN_BUILD (R64). -/
def execOpenBuild (p : Port) (s : State) : Host.Outcome State Fault Refusal :=
  controlCommand p .openBuild (openBuildBody p) s

/-- APPEND_POINTS (R66, R67). -/
def execAppendPoints (p : Port) (s : State) : Host.Outcome State Fault Refusal :=
  controlCommand p .appendPoints (appendPointsBody p) s

/-- CLOSE_BUILD (R68, R70, R71). -/
def execCloseBuild (p : Port) (s : State) : Host.Outcome State Fault Refusal :=
  controlCommand p .closeBuild (closeBuildBody p) s

/-- CANCEL_BUILD (R72). -/
def execCancelBuild (p : Port) (s : State) : Host.Outcome State Fault Refusal :=
  controlCommand p .cancelBuild (cancelBuildBody p) s

/-! ## Proposals -/

/-- APPROVE (R85, R86). -/
def execApprove (p : Port) (s : State) : Host.Outcome State Fault Refusal :=
  controlCommand p .approve (approveBody p) s

/-- VETO (R85, R87). -/
def execVeto (p : Port) (s : State) : Host.Outcome State Fault Refusal :=
  controlCommand p .veto (vetoBody p) s

/-- WITHDRAW (R88). -/
def execWithdraw (p : Port) (s : State) : Host.Outcome State Fault Refusal :=
  controlCommand p .withdraw (withdrawBody p) s

/-! ## Leases -/

/-- HOLD (R104, R105). -/
def execHold (p : Port) (s : State) : Host.Outcome State Fault Refusal :=
  controlCommand p .hold (holdBody p) s

/-- RENEW (R107). -/
def execRenew (p : Port) (s : State) : Host.Outcome State Fault Refusal :=
  controlCommand p .renew (renewBody p) s

/-- RELEASE (R108). -/
def execRelease (p : Port) (s : State) : Host.Outcome State Fault Refusal :=
  controlCommand p .release (releaseBody p) s

/-! ## Option fuses -/

/-- READ_OPTIONS (R175). -/
def execReadOptions (p : Port) (s : State) : Host.Outcome State Fault Refusal :=
  controlCommand p .readOptions readOptionsBody s

/-- PROGRAM_OPTION (R172, R173). -/
def execProgramOption (p : Port) (s : State) : Host.Outcome State Fault Refusal :=
  controlCommand p .programOption (programOptionBody p) s

/-- CLOSE_PROVISIONING (R174). -/
def execCloseProvisioning (p : Port) (s : State) : Host.Outcome State Fault Refusal :=
  controlCommand p .closeProvisioning (closeProvisioningBody p) s

end Sys2Proof.Machine
end

