-- ==== Sys2Proof/Machine/Link.lean ====
section
/-! DEFINITION. The link of a client port, byte by byte: POST, FETCH, REFETCH, DRAIN, STATUS and unknown kinds
(chapter 9). A transaction acts on its own port only. -/

namespace Sys2Proof.Machine

/-- The byte shifted out while the next byte is clocked in (R144 to R155). -/
def PortState.nextOut (x : PortState) (t : Txn) : Byte :=
  match t.phase with
  | .select st => st
  | .post _ | .rest => 0x00
  | .accepting _ => AcceptCode.accepted.code
  | .rejecting code => code.code
  | .fetch left | .send left => left.headD 0x00
  | .drainCount n => countByte n
  | .drainRecord _ pos _ => (x.events.head?.map EventRecord.bytes |>.getD []).getD pos 0x00
  | .drainLost _ _ => if x.lost then 0x01 else 0x00
  | .drainCheck acc => crc8 acc

/-- The bytes of a frame are complete: kind, tag, length L, L payload bytes and the CRC-8 (R147). -/
def frameComplete (got : List Byte) : Bool := 3 ≤ got.length && got.length == 4 + (got.getD 2 0).toNat

/-- What the port decides when the CRC-8 byte of a frame has been clocked in (R148, Table 80). -/
def PortState.judge (x : PortState) (running : Bool) (got : List Byte) : TxnPhase :=
  let body := got.dropLast
  if !running then .rejecting .notReady
  else if x.resetting then .rejecting .portResetting
  else if crc8 body ≠ got.getLastD 0 then .rejecting .crcError
  else match CommandKind.ofCode (got.getD 0 0) with
  | none => .rejecting .unknownKind
  | some k =>
    if !k.allowsLength (got.getD 2 0).toNat then .rejecting .lengthError
    else if Config.windowSize ≤ x.window then .rejecting .windowFull
    else .accepting { kind := k, tag := got.getD 1 0, payload := body.drop 3 }

/-- The empty marker, 0x00 and its CRC-8 (R153). -/
def emptyMarker : List Byte := [0x00, 0x00]

/-- How a transaction goes on when its kind byte has been clocked in (R146, R153, R154, R155). -/
def PortState.choose (x : PortState) (running : Bool) (kind : Byte) : TxnPhase :=
  if kind = 0x01 then .post []
  else if kind = 0x02 then
    match running, x.respQueue with
    | true, r :: _ => .fetch r.bytes
    | _, _ => .send emptyMarker
  else if kind = 0x03 then
    match running, x.lastFetched with
    | true, some r => .send r.bytes
    | _, _ => .send emptyMarker
  else if kind = 0x04 then .drainCount (if running then min Config.drainLimit x.events.length else 0)
  else .rest

/-- A FETCH is complete: the response leaves the queue and becomes the last-fetched one (R153). -/
def PortState.completeFetch (x : PortState) : PortState :=
  match x.respQueue with
  | [] => x
  | r :: rest => ({ x with respQueue := rest, lastFetched := some r }).reevaluate

/-- The first bits of the next byte are shifted: the byte going out is settled. -/
def PortState.beginByte (x : PortState) : PortState :=
  match x.txn with
  | none => x
  | some t => { x with txn := some { t with out := some (t.out.getD (x.nextOut t)) } }

/-- What the eighth bit of a byte does, in a transaction at this phase: the port's new state and the phase that follows.
`b` is the byte clocked in and `o` the byte clocked out. -/
def PortState.endPhase (x : PortState) (running : Bool) (b o : Byte) : TxnPhase → PortState × TxnPhase
  | .select _ => (x, x.choose running b)
  | .post got =>
    let got := got ++ [b]
    (x, if frameComplete got then x.judge running got else .post got)
  | .accepting f => ({ x with cmdQueue := x.cmdQueue ++ [f] }, .rest)
  | .rejecting _ => (x, .rest)
  | .fetch left =>
    match left.tail with
    | [] => (x.completeFetch, .rest)
    | more => (x, .fetch more)
  | .send left =>
    match left.tail with
    | [] => (x, .rest)
    | more => (x, .send more)
  | .drainCount n => (x, if n = 0 then .drainLost [o] false else .drainRecord n 0 [o])
  | .drainRecord left pos acc =>
    if pos + 1 < 6 then (x, .drainRecord left (pos + 1) (acc ++ [o]))
    else
      (({ x with events := x.events.tail }).reevaluate,
        if left - 1 = 0 then .drainLost (acc ++ [o]) false else .drainRecord (left - 1) 0 (acc ++ [o]))
  | .drainLost acc dropped =>
    (if o = 0x01 ∧ dropped = false then ({ x with lost := false }).reevaluate else x, .drainCheck (acc ++ [o]))
  | .drainCheck _ => (x, .rest)
  | .rest => (x, .rest)

/-- A byte clocked in full on the port: the byte that went out is recorded and the transaction moves on. -/
def PortState.clockByte (running : Bool) (x : PortState) (b : Byte) : PortState :=
  match x.txn with
  | none => x
  | some t =>
    let o := t.out.getD (x.nextOut t)
    let (y, phase) := x.endPhase running b o t.phase
    { y with sent := x.sent ++ [o], txn := some { kind := some (t.kind.getD b), phase := phase, out := none } }

/-- CSN falls: a transaction begins, with the status byte taken now, 0x00 during start-up (R145, R161). -/
def PortState.selected (x : PortState) (running : Bool) : PortState :=
  { x with sent := [],
           txn := some { kind := none, phase := .select (if running then x.statusByte else 0x00), out := none } }

/-- The end of a step's clocking: CSN rises, a byte of which fewer than eight bits are in being discarded (R144), or
stays low with the next byte begun or not. -/
def PortState.finishClocking (x : PortState) : Clocking → PortState
  | .closed | .abandoned => { x with txn := none }
  | .insideByte | .insideKind => x.beginByte
  | .held | .selected => x

/-- A step's clocking that stops before the kind byte is in (R144). -/
def endsBeforeKind : Clocking → Bool
  | .selected | .insideKind | .abandoned => true
  | .insideByte | .held | .closed => false

/-- The kind byte of the transaction in progress, absent before it is in. -/
def PortState.txnKind (x : PortState) : Option Byte := x.txn.bind (·.kind)

/-- A step of a transaction on an enabled port: CSN falls if no transaction is in progress; the kind byte is clocked if
it is not in and the step does not stop before it; then the bytes. Absent when the transaction in progress is of another
kind, or is past the point at which the step would stop, which this row cannot go on with (R144; log 2). -/
def PortState.transact (x : PortState) (running : Bool) (kind : Byte) (bytes : List Byte) (c : Clocking) :
    Option PortState :=
  let y := if x.txn.isNone then x.selected running else x
  if c = .selected ∧ x.txn.isSome then none
  else match y.txnKind with
  | none =>
    if endsBeforeKind c then some (y.finishClocking c)
    else some (((kind :: bytes).foldl (PortState.clockByte running) y).finishClocking c)
  | some k =>
    if k = kind ∧ endsBeforeKind c = false then some ((bytes.foldl (PortState.clockByte running) y).finishClocking c)
    else none

/-- A step of a transaction of a kind on a port. A disabled port ignores its lines (R160). -/
def transaction (p : Port) (kind : Byte) (bytes : List Byte) (c : Clocking) (s : State) :
    Host.Outcome State Fault Refusal :=
  if !s.isEnabled p then .next s
  else match (s.port p).transact s.isRunning kind bytes c with
  | none => .next s
  | some x => .next (s.setPort p x)

/-- POST (R147, R148, R149). -/
def execPost (p : Port) (bytes : List Byte) (c : Clocking) (s : State) : Host.Outcome State Fault Refusal :=
  transaction p 0x01 bytes c s

/-- FETCH (R153). -/
def execFetch (p : Port) (n : Nat) (c : Clocking) (s : State) : Host.Outcome State Fault Refusal :=
  transaction p 0x02 (List.replicate n 0x00) c s

/-- REFETCH (R154). -/
def execRefetch (p : Port) (n : Nat) (c : Clocking) (s : State) : Host.Outcome State Fault Refusal :=
  transaction p 0x03 (List.replicate n 0x00) c s

/-- DRAIN (R155). -/
def execDrain (p : Port) (n : Nat) (c : Clocking) (s : State) : Host.Outcome State Fault Refusal :=
  transaction p 0x04 (List.replicate n 0x00) c s

/-- STATUS (R146). -/
def execStatus (p : Port) (n : Nat) (c : Clocking) (s : State) : Host.Outcome State Fault Refusal :=
  transaction p 0x05 (List.replicate n 0x00) c s

/-- A transaction of an unknown kind (R146). A kind byte of the five is none of this row (log 2). -/
def execUnknownTransactionKind (p : Port) (kind : Byte) (n : Nat) (c : Clocking) (s : State) :
    Host.Outcome State Fault Refusal :=
  if isTransactionKind kind then .next s else transaction p kind (List.replicate n 0x00) c s

end Sys2Proof.Machine
end

