-- ==== Sys2Proof/Machine/Evaluate.lean ====
section
/-! DEFINITION. The arithmetic of a lookup against the points of one generation (chapter 2, R29 to R35). Values are
computed as integers and narrowed at the end. -/

namespace Sys2Proof.Machine

/-- The integer nearest to `n` divided by `d`; a half-way case goes away from zero (R32). -/
def roundedQuotient (n : Int) (d : Nat) : Int :=
  let q := n.natAbs / d
  let r := n.natAbs % d
  let m := if d ≤ 2 * r then q + 1 else q
  if n < 0 then -(m : Int) else (m : Int)

/-- The point at an index of the sequence. -/
def pointAt (ps : List Point) (i : Nat) : Point := ps.getD i ⟨0, 0⟩

/-- The value on the line through `a` and `b`, anchored at `anchor`, rounded (R32, R34). -/
def lineValue (anchor a b : Point) (x : Int) : Int :=
  anchor.y.toInt
    + roundedQuotient ((x - anchor.x.toInt) * (b.y.toInt - a.y.toInt)) (b.x.toInt - a.x.toInt).toNat

/-- The largest index whose x is not above the input (R30). -/
def segmentIndex (ps : List Point) (x : Int) : Nat :=
  ((List.range ps.length).filter (fun i => (pointAt ps i).x.toInt ≤ x)).getLastD 0

/-- The value of an input inside the range (R31, R32). -/
def insideValue (m : Interpolation) (ps : List Point) (x : Int) : Int :=
  let i := segmentIndex ps x
  match m with
  | .step => (pointAt ps i).y.toInt
  | .linear =>
    if i + 1 < ps.length then lineValue (pointAt ps i) (pointAt ps i) (pointAt ps (i + 1)) x
    else (pointAt ps i).y.toInt

/-- The exact sum of R34: the end segment continued below or above the range. -/
def extendedValue (ps : List Point) (below : Bool) (x : Int) : Int :=
  let n := ps.length
  if below then lineValue (pointAt ps 0) (pointAt ps 0) (pointAt ps 1) x
  else lineValue (pointAt ps (n - 1)) (pointAt ps (n - 2)) (pointAt ps (n - 1)) x

/-- The y value of the end point on the input's side (R33). -/
def endValue (ps : List Point) (below : Bool) : Int :=
  if below then (pointAt ps 0).y.toInt else (pointAt ps (ps.length - 1)).y.toInt

/-- A sum brought into the 16-bit range (R34). -/
def saturated (v : Int) : Int := max (-32768) (min 32767 v)

/-- The result of an input below or above the range (R33, R34, R35). -/
def outsideResult (m : Interpolation) (e : Extrapolation) (ps : List Point) (below : Bool) (x : Int) (stale : Bool) :
    LookupResult :=
  let flags := { ResultFlags.none with below := below, above := !below, stale := stale }
  match e, m with
  | .clamp, _ | .extend, .step => ⟨BitVec.ofInt 16 (endValue ps below), flags⟩
  | .extend, .linear =>
    let v := extendedValue ps below x
    ⟨BitVec.ofInt 16 (saturated v), { flags with saturated := decide (saturated v ≠ v) }⟩
  | .reject, _ => ⟨0, { flags with rejected := true }⟩

/-- The value and the flags of one input (R29 to R35). -/
def evaluateInput (m : Interpolation) (e : Extrapolation) (stale : Bool) (ps : List Point) (input : Word) :
    LookupResult :=
  let x := input.toInt
  if x < (pointAt ps 0).x.toInt then outsideResult m e ps true x stale
  else if (pointAt ps (ps.length - 1)).x.toInt < x then outsideResult m e ps false x stale
  else ⟨BitVec.ofInt 16 (insideValue m ps x), { ResultFlags.none with stale := stale }⟩

/-- The bytes of one result of a LOOKUP_BATCH (Table 97). -/
def LookupResult.bytes (r : LookupResult) : List Byte := wordBytes r.value ++ [r.flags.code]

end Sys2Proof.Machine
end

