-- ==== Sys2Proof/Machine/Lookups.lean ====
section
/-! DEFINITION. Lookups: the lane arbiter's grant, the capture and release claims, and the commands LOOKUP and
LOOKUP_BATCH carried out whole (chapter 2). -/

namespace Sys2Proof.Machine

/-- The working record a lane fills from a granted command (Table 24). -/
def LaneWork.ofFrame (p : Port) (f : Frame) : LaneWork :=
  let slot := f.payload.getD 0 0
  let options := f.payload.getD 1 0
  if f.kind = .lookupBatch then
    { port := p, frame := f, slot := slot, options := options, count := (f.payload.getD 2 0).toNat,
      inputs := (wordsOf (f.payload.drop 3)).getD [], capture := none }
  else
    { port := p, frame := f, slot := slot, options := options, count := 1,
      inputs := (wordsOf (f.payload.drop 2)).getD [], capture := none }

/-- One grant of the lane arbiter (R23): the chosen port's lookup passes into execution on the lowest IDLE lane, and the
pointer moves past the port. -/
def State.grantLane (s : State) : Option (LaneIndex × State) :=
  match s.idleLane, s.laneChoice with
  | some l, some p =>
    match (s.port p).cmdQueue with
    | f :: _ => some (l, { (s.passHead p).setLane l (some (LaneWork.ofFrame p f)) with lanePtr := p + 1 })
    | [] => none
  | _, _ => none

/-- LANE_GRANT (R23). With no IDLE lane or no eligible port there is no grant (log 2). -/
def execLaneGrant (s : State) : Host.Outcome State Fault Refusal :=
  match s.isRunning, s.grantLane with
  | true, some (_, t) => .next t
  | _, _ => .next s

/-- The record a capture claim captures with its stale indication, or the status of the first failing dispatch check
(R26, R27, R28). -/
def State.captureChecks (s : State) (w : LaneWork) : Except Status (RecordIndex × Bool) :=
  if !s.isAttached w.port then .error .notAttached
  else match slotOf w.slot with
  | none => .error .badArgument
  | some k =>
    if !optionsInRange w.options || w.count == 0 || Config.maxInputs < w.count || w.count != w.inputs.length then
      .error .badArgument
    else
      let held := (s.callersLease w.port k).map (fun l => l.2.record)
      let applies := if ignoreLease w.options then none else held
      let state := (s.slot k).state
      let readers := match state.definition with
        | some d => d.readers
        | none => 0
      match applies, state.current with
      | none, none => .error .notLive
      | some r, cur => if PortSet.has readers w.port then .ok (r, cur != some r) else .error .noAccess
      | none, some r =>
        if !PortSet.has readers w.port then .error .noAccess
        else if requireLease w.options then .error .noLease
        else .ok (r, false)

/-- A capture claim taken for a lane's granted lookup: the capture (R28), or the refusal with its response, after which
the lane is IDLE (R26). -/
def State.takeCapture (s : State) (l : LaneIndex) (w : LaneWork) : State :=
  match s.captureChecks w with
  | .ok (r, stale) =>
    (s.raiseReference r).setLane l (some { w with capture := some { record := r, stale := stale, results := [] } })
  | .error st => (s.deliverResponse w.port ⟨w.frame.kind, w.frame.tag, st, []⟩).setLane l none

/-- CAPTURE_CLAIM (R26, R28). A lane that waits for no dispatch presents no capture claim (log 2). -/
def execCaptureClaim (l : LaneIndex) (s : State) : Host.Outcome State Fault Refusal :=
  match s.takesClaims, s.lane l with
  | true, some w =>
    match w.capture with
    | none => .next (s.takeCapture l w)
    | some _ => .next s
  | _, _ => .next s

/-- The inputs still to evaluate are evaluated in order against the captured record, each result joining the list
(R29). None when the record holds no table of at least two located points. -/
def State.evaluateLane (s : State) (w : LaneWork) (c : Capture) : Option Capture :=
  match s.record c.record with
  | none => none
  | some g =>
    match g.points s.store with
    | none => none
    | some ps =>
      if ps.length < 2 then none
      else
        let evaluate := evaluateInput g.interpolation g.extrapolation c.stale ps
        some { c with results := c.results ++ (w.inputs.drop c.results.length).map evaluate }

/-- The response to a lookup that passed its dispatch checks (R36, R37). -/
def lookupResponse (w : LaneWork) (number : GenNumber) (results : List LookupResult) : Response :=
  if w.frame.kind = .lookupBatch then
    ⟨w.frame.kind, w.frame.tag, .ok,
      wordBytes number ++ [countByte results.length] ++ results.flatMap LookupResult.bytes⟩
  else
    let r := results.headD ⟨0, ResultFlags.none⟩
    if r.flags.rejected then ⟨w.frame.kind, w.frame.tag, .outOfRange, wordBytes number ++ [r.flags.code]⟩
    else ⟨w.frame.kind, w.frame.tag, .ok, wordBytes number ++ wordBytes r.value ++ [r.flags.code]⟩

/-- A lookup completes (R38): its reference is released, then its response is delivered, and the lane is IDLE. -/
def State.completeLookup (s : State) (l : LaneIndex) (w : LaneWork) (c : Capture) : State :=
  ((s.dropReference c.record).deliverResponse w.port (lookupResponse w (s.numberOf c.record) c.results)).setLane l none

/-- The evaluation of a dispatched lookup and its completion (R29, R38). -/
def State.takeRelease (s : State) (l : LaneIndex) (w : LaneWork) (c : Capture) : Host.Outcome State Fault Refusal :=
  match s.evaluateLane w c with
  | some c' => .next (s.completeLookup l w c')
  | none => .fault .pointNotLocated

/-- RELEASE_CLAIM (R38). A lane with no lookup in flight presents no release claim (log 2). -/
def execReleaseClaim (l : LaneIndex) (s : State) : Host.Outcome State Fault Refusal :=
  match s.takesClaims, s.lane l with
  | true, some w =>
    match w.capture with
    | some c => s.takeRelease l w c
    | none => .next s
  | _, _ => .next s

/-- The lane that serves a port's lookup of a kind. -/
def State.laneOf (s : State) (p : Port) (k : CommandKind) : Option LaneIndex :=
  (List.finRange 2).find? (fun l => (s.lane l).any (fun w => w.port == p && w.frame.kind == k))

/-- The lane that serves the port's lookup in this step, after its grant when the grant is still to be made. -/
def State.servingLane (s : State) (p : Port) (k : CommandKind) : Option (LaneIndex × State) :=
  match s.laneOf p k with
  | some l => some (l, s)
  | none =>
    if s.laneChoice == some p && (s.port p).cmdQueue.head?.any (fun f => f.kind == k) then s.grantLane else none

/-- A port's lookup carried out to its response, from wherever it stands: granted (R23), dispatched (R28), evaluated and
completed (R38), with nothing in between (log 22). -/
def lookupCommand (p : Port) (k : CommandKind) (s : State) : Host.Outcome State Fault Refusal :=
  match s.takesClaims, s.servingLane p k with
  | true, some (l, t) =>
    match t.lane l with
    | none => .next s
    | some w =>
      match w.capture with
      | some c => t.takeRelease l w c
      | none =>
        let u := t.takeCapture l w
        match (u.lane l).bind (fun v => v.capture) with
        | some c => u.takeRelease l w c
        | none => .next u
  | _, _ => .next s

/-- LOOKUP (R36). -/
def execLookup (p : Port) (s : State) : Host.Outcome State Fault Refusal := lookupCommand p .lookup s

/-- LOOKUP_BATCH (R37). -/
def execLookupBatch (p : Port) (s : State) : Host.Outcome State Fault Refusal := lookupCommand p .lookupBatch s

end Sys2Proof.Machine
end

