-- ==== Sys2Proof/Machine/Resets.lean ====
section
/-! DEFINITION. Port resets (chapter 9), the device's resets and start-ups (chapter 11), and the tick. -/

namespace Sys2Proof.Machine

/-! ## Port reset (R157 to R159) -/

/-- The byte in progress is cut short by a discard: some of its bits are 1, and 0x00 is to go out from now on
(R157, R161). -/
def Txn.cutShort (t : Txn) : Bool := decide (t.phase ≠ .rest) && t.out.any (fun b => b != 0x00)

/-- A transaction from which nothing more comes until CSN rises (R157, R161). For a byte that is cut short the free
value `cut` goes out (log 7). A byte in progress that is 0x00 stays so, as does one after which nothing more comes. -/
def Txn.discarded (cut : Byte) (t : Txn) : Txn :=
  { t with phase := .rest, out := if t.cutShort then some cut else t.out }

/-- A transaction in progress on port `p` is discarded (R157, R161). -/
def PortState.discardTxn (p : Port) (x : PortState) : PortState :=
  { x with txn := x.txn.map (Txn.discarded (Config.cutByte p.val x.cuts)),
           cuts := if x.txn.any Txn.cutShort then x.cuts + 1 else x.cuts }

/-- Steps 1 to 5 and 7 of a port reset (R157). -/
def PortState.reset (p : Port) (x : PortState) : PortState :=
  ({ x.discardTxn p with
      cmdQueue := [], respQueue := [], lastFetched := none, events := [], lost := false,
      inExec := x.inExec.map (fun e : Execution => ⟨e.frame, true⟩), resetting := true }).reevaluate

/-- A port reset taken (R157): step 6 presents a teardown request when the session indication is ATTACHED. -/
def State.resetPort (s : State) (p : Port) : State :=
  let t := s.updPort p (PortState.reset p)
  if (s.port p).attached then
    (t.updPort p (fun x => { x with teardownOutstanding := true })).presentRequest p
  else t

/-- A control command at the head of the port's queue that the Table Manager takes now passes into execution (R151). -/
def State.passBefore (s : State) (p : Port) : State := if (s.nextCommand p).isSome then s.takeCommand p else s

/-- PRSTN_ASSERTED (R157). A line already low does not fall; during reset, start-up and on a disabled port only its
level changes (R160, R177). -/
def execPrstnAsserted (p : Port) (headPassed : Bool) (s : State) : Host.Outcome State Fault Refusal :=
  if (s.port p).prstnLow then .next s
  else
    let low := s.updPort p (fun x => { x with prstnLow := true })
    if s.isRunning && s.isEnabled p then
      .next ((if headPassed then low.passBefore p else low).resetPort p)
    else .next low

/-- PRSTN_RELEASED (R159): the port is NORMAL unless a teardown is outstanding. -/
def execPrstnReleased (p : Port) (s : State) : Host.Outcome State Fault Refusal :=
  if !(s.port p).prstnLow then .next s
  else if s.isRunning && s.isEnabled p then
    .next (s.updPort p (fun x => { x with prstnLow := false, resetting := x.resetting && x.teardownOutstanding }))
  else .next (s.updPort p (fun x => { x with prstnLow := false }))

/-! ## Device reset (R177, R19, R44, R161, R176) -/

/-- A port at a device reset: its transaction is discarded and its queues are emptied (R161; log 13). -/
def PortState.deviceReset (p : Port) (x : PortState) : PortState :=
  ({ x.discardTxn p with
      cmdQueue := [], inExec := none, respQueue := [], lastFetched := none, events := [], lost := false }).reevaluate

/-- Every port changed in the same way. -/
def State.eachPort (s : State) (f : Port → PortState → PortState) : State :=
  allPorts.foldl (fun t p => t.updPort p (f p)) s

/-- What a device reset does at its assertion: READY falls, lookups are abandoned, a burn is stopped with its field
SPOILED, the ports are emptied and no claim waits (R44, R138, R161, R176, R177). -/
def State.enterReset (s : State) (phase : Phase) : State :=
  { s.eachPort PortState.deviceReset with
      ready := false, lanes := Vector.replicate 2 none, burn := none, requests := [], phase := phase }

/-- The kind of reset that RSTN gives by the value in use (R177). -/
def State.rstnKind (s : State) : ResetKind := if s.inUse.warmRetain then .warm else .cold

/-- The kind of reset an assertion of RSTN gives now: a cold start-up cut short is followed by a cold one (R177). -/
def State.assertedKind (s : State) : ResetKind :=
  match s.phase with
  | .running | .startUp .warm => s.rstnKind
  | .startUp .cold => .cold
  | .inReset k => k

/-- RSTN_ASSERTED (R177). A line already low does not fall (log 2). -/
def execRstnAsserted (s : State) : Host.Outcome State Fault Refusal :=
  if s.rstnLow then .next s else .next { s.enterReset (.inReset s.assertedKind) with rstnLow := true }

/-- The start-up of a kind begins, and the time with it at 0 (R136, R177). -/
def State.beginStartUp (s : State) (k : ResetKind) : State := { s with phase := .startUp k, time := 0 }

/-- RSTN_RELEASED (R177): the start-up of the reset's kind begins. -/
def execRstnReleased (s : State) : Host.Outcome State Fault Refusal :=
  if !s.rstnLow then .next s
  else
    match s.phase with
    | .inReset k => .next ({ s with rstnLow := false }.beginStartUp k)
    | .running | .startUp _ => .next { s with rstnLow := false }

/-- POWER_ON (R177): a cold reset whose start-up begins as power is good, or when RSTN is released if it is low. The
shadow holds no value until it is loaded, and the Point Store holds what memory holds after power-on (log 10, log 12). -/
def execPowerOn (s : State) : Host.Outcome State Fault Refusal :=
  let t := { s.enterReset (.inReset .cold) with shadow := none, store := [] }
  .next (if s.rstnLow then t else t.beginStartUp .cold)

/-! ## Start-up (R178, R179, Table 82) -/

/-- A port when start-up completes (Table 82); a disabled one is never RESETTING (R160). -/
def PortState.started (enabled : Bool) (x : PortState) : PortState :=
  { txn := x.txn, sent := x.sent, cmdQueue := [], inExec := none, respQueue := [], lastFetched := none, events := [],
    lost := false, resetting := enabled && x.prstnLow, teardownOutstanding := false, attached := false, attn := false, prstnLow := x.prstnLow, cuts := x.cuts }

/-- What both start-ups set alike: contexts, proposals, leases, lanes, pointers, ports and READY. -/
def State.startCommon (s : State) : State :=
  { s.eachPort (fun p => PortState.started (s.isEnabled p)) with
      contexts := Vector.replicate 4 none, proposals := Vector.replicate 8 none, leases := Vector.replicate 32 none,
      lanes := Vector.replicate 2 none, controlPtr := 0, lanePtr := 0, requests := [], ready := true, phase := .running }

/-- A port when the shadow is loaded: one that is disabled from then on ignores its lines and carries no transaction
(R160, R177). -/
def PortState.roled (enabled : Bool) (x : PortState) : PortState :=
  { x with txn := if enabled then x.txn else none, sent := if enabled then x.sent else [] }

/-- The loading of the shadow, from which on the value loaded says which ports are enabled (R171, R177). -/
def State.loadOptions (s : State) : State :=
  let t := { s with shadow := some s.loadShadow }
  t.eachPort (fun p => PortState.roled (t.isEnabled p))

/-- A cold start-up (R178). -/
def State.coldStart (s : State) : State :=
  { s.loadOptions.startCommon with
      slots := Vector.replicate 64 SlotRecord.vacant
      records := Vector.replicate 128 none
      freeList := List.finRange 512
      sessions := Vector.replicate 4 SessionEntry.initial
      storeLowArmed := true }

/-- A record after a warm start-up: a CURRENT one is kept with no reference, any other is FREE (R21). -/
def GenRecord.warm (g : GenRecord) : Option GenRecord :=
  if g.state.isCurrent then some { g with refCount := 0 } else none

/-- A slot record after a warm start-up (Table 42). -/
def SlotRecord.warm (k : SlotRecord) : SlotRecord :=
  match k.state with
  | .vacant | .retiring _ => SlotRecord.vacant
  | .defined _ | .live _ _ => { k with build := none, proposal := none }

/-- The blocks of the records in use. -/
def blocksInUse (records : List (Option GenRecord)) : List BlockIndex :=
  records.flatMap (fun g =>
    match g with
    | some g => g.blocks
    | none => [])

/-- A warm start-up (R179, R21, R60, R129). -/
def State.warmStart (s : State) : State :=
  let records := s.records.map (fun g => g.bind GenRecord.warm)
  let freeList := (List.finRange 512).filter (fun b => !(blocksInUse records.toList).contains b)
  { s.startCommon with
      slots := s.slots.map SlotRecord.warm
      records := records
      freeList := freeList
      sessions := s.sessions.map (fun e => { e with state := .detached, teardownPending := false })
      storeLowArmed := Config.storeLowThreshold ≤ freeList.length }

/-- COLD_START_UP (R178): what is left of the start-up is carried out to its end. It is carried out while a cold
start-up has begun (log 2). -/
def execColdStartUp (s : State) : Host.Outcome State Fault Refusal :=
  match s.phase with
  | .startUp .cold => .next s.coldStart
  | .startUp .warm | .running | .inReset _ => .next s

/-- WARM_START_UP (R179). It is carried out while a warm start-up has begun (log 2). -/
def execWarmStartUp (s : State) : Host.Outcome State Fault Refusal :=
  match s.phase with
  | .startUp .warm => .next s.warmStart
  | .startUp .cold | .running | .inReset _ => .next s

/-! ## The tick (R136) -/

/-- 1 ms of the Timer Base: what a step does when no command waits (R136; log 3). The time runs from the beginning of
start-up on. In a cold start-up the shadow is loaded in this time (R177; log 12). While the part runs the time does not
pass an expiry that must be taken first (log 4). -/
def State.tick (s : State) : State :=
  match s.phase with
  | .running => if s.overdue then s else { s with time := s.time + 1 }
  | .startUp .cold => { s.loadOptions with time := s.time + 1 }
  | .startUp .warm => { s with time := s.time + 1 }
  | .inReset _ => s

end Sys2Proof.Machine
end

