-- ==== Sys2Proof/Machine/Dispatch.lean ====
section
/-! DEFINITION. One arm per row of spec/opcode_table.json. -/

namespace Sys2Proof.Machine

def exec (i : Instr) (s : State) : Host.Outcome State Fault Refusal :=
  match i with
  | .attach p => Sys2Proof.Machine.execAttach p s
  | .detach p => Sys2Proof.Machine.execDetach p s
  | .defineTable p => Sys2Proof.Machine.execDefineTable p s
  | .tableInfo p => Sys2Proof.Machine.execTableInfo p s
  | .proposeRetire p => Sys2Proof.Machine.execProposeRetire p s
  | .storeInfo p => Sys2Proof.Machine.execStoreInfo p s
  | .openBuild p => Sys2Proof.Machine.execOpenBuild p s
  | .appendPoints p => Sys2Proof.Machine.execAppendPoints p s
  | .closeBuild p => Sys2Proof.Machine.execCloseBuild p s
  | .cancelBuild p => Sys2Proof.Machine.execCancelBuild p s
  | .approve p => Sys2Proof.Machine.execApprove p s
  | .veto p => Sys2Proof.Machine.execVeto p s
  | .withdraw p => Sys2Proof.Machine.execWithdraw p s
  | .hold p => Sys2Proof.Machine.execHold p s
  | .renew p => Sys2Proof.Machine.execRenew p s
  | .release p => Sys2Proof.Machine.execRelease p s
  | .lookup p => Sys2Proof.Machine.execLookup p s
  | .lookupBatch p => Sys2Proof.Machine.execLookupBatch p s
  | .readPoints p => Sys2Proof.Machine.execReadPoints p s
  | .readOptions p => Sys2Proof.Machine.execReadOptions p s
  | .programOption p => Sys2Proof.Machine.execProgramOption p s
  | .closeProvisioning p => Sys2Proof.Machine.execCloseProvisioning p s
  | .burnCompletion => Sys2Proof.Machine.execBurnCompletion s
  | .laneGrant => Sys2Proof.Machine.execLaneGrant s
  | .captureClaim l => Sys2Proof.Machine.execCaptureClaim l s
  | .releaseClaim l => Sys2Proof.Machine.execReleaseClaim l s
  | .teardownRequest p => Sys2Proof.Machine.execTeardownRequest p s
  | .pendingTeardown p => Sys2Proof.Machine.execPendingTeardown p s
  | .buildIdleExpiry h => Sys2Proof.Machine.execBuildIdleExpiry h s
  | .proposalExpiry e => Sys2Proof.Machine.execProposalExpiry e s
  | .leaseExpiry e => Sys2Proof.Machine.execLeaseExpiry e s
  | .post p bytes c => Sys2Proof.Machine.execPost p bytes c s
  | .fetch p n c => Sys2Proof.Machine.execFetch p n c s
  | .refetch p n c => Sys2Proof.Machine.execRefetch p n c s
  | .drain p n c => Sys2Proof.Machine.execDrain p n c s
  | .status p n c => Sys2Proof.Machine.execStatus p n c s
  | .unknownTransactionKind p kind n c => Sys2Proof.Machine.execUnknownTransactionKind p kind n c s
  | .prstnAsserted p headPassed => Sys2Proof.Machine.execPrstnAsserted p headPassed s
  | .prstnReleased p => Sys2Proof.Machine.execPrstnReleased p s
  | .rstnAsserted => Sys2Proof.Machine.execRstnAsserted s
  | .rstnReleased => Sys2Proof.Machine.execRstnReleased s
  | .powerOn => Sys2Proof.Machine.execPowerOn s
  | .coldStartUp => Sys2Proof.Machine.execColdStartUp s
  | .warmStartUp => Sys2Proof.Machine.execWarmStartUp s

end Sys2Proof.Machine
end

