-- ==== Sys2Proof/Machine/Step.lean ====
section
/-! DEFINITION. One step: the step at the front of the queue is carried out on the state with the queue's rest. -/

namespace Sys2Proof.Machine

/-- The front of the queue is carried out with the queue's rest in place. With nothing waiting a tick of the Timer
Base passes (log 3). -/
def step (s : State) : Host.Outcome State Fault Refusal :=
  match s.pending with
  | [] => .next s.tick
  | i :: rest => exec i { s with pending := rest }

/-- `s` with the command that a word of the table spells put at the front of its queue; `s` itself where the word
spells none (log 18). -/
def State.withFetchWord (s : State) (nbits w : Nat) : State :=
  match Sys2Proof.decodeTableWord nbits w with
  | some i => { s with pending := i :: s.pending }
  | none => s

end Sys2Proof.Machine
end

