-- ==== Sys2Proof/Safety.lean ====
section
/-! DEFINITION. What counts as a safe run, and the laws of the device that the spec numbers, as predicates over states.
A law that the spec states for the part while it serves its hosts is asked only while the part runs: from the
assertion of a reset to the end of the start-up the lanes and ports are empty and the tables wait to be rebuilt. -/

namespace Sys2Proof.Machine

/-- A step from this state completes: it raises no fault and is not refused. -/
def State.stepsSafely (s : State) : Prop := ∃ t, step s = .next t

/-- The row answers the command `f` of port `p`: its effects leave `u`, and the response with this status and payload is
then delivered (R132, R140). -/
def answers (c : Instr) (s : State) (p : Port) (f : Frame) (u : State) (st : Status) (payload : List Byte) : Prop :=
  exec c s = .next (u.deliverResponse p ⟨f.kind, f.tag, st, payload⟩)

/-- A mask byte that names only enabled ports (R49 step 2). -/
def State.allowedMask (s : State) (m : Byte) : Prop := m.toNat < 16 ∧ ∀ q : Port, m.getLsbD q.val = true → s.isEnabled q = true

/-! ## Rows by shape -/

/-- The port and the command kind of a row that is a control command of the Table Manager (Table 71). -/
def controlRow : Instr → Option (Port × CommandKind)
  | .attach p => some (p, .attach)
  | .detach p => some (p, .detach)
  | .defineTable p => some (p, .defineTable)
  | .tableInfo p => some (p, .tableInfo)
  | .proposeRetire p => some (p, .proposeRetire)
  | .storeInfo p => some (p, .storeInfo)
  | .openBuild p => some (p, .openBuild)
  | .appendPoints p => some (p, .appendPoints)
  | .closeBuild p => some (p, .closeBuild)
  | .cancelBuild p => some (p, .cancelBuild)
  | .approve p => some (p, .approve)
  | .veto p => some (p, .veto)
  | .withdraw p => some (p, .withdraw)
  | .hold p => some (p, .hold)
  | .renew p => some (p, .renew)
  | .release p => some (p, .release)
  | .readPoints p => some (p, .readPoints)
  | .readOptions p => some (p, .readOptions)
  | .programOption p => some (p, .programOption)
  | .closeProvisioning p => some (p, .closeProvisioning)
  | .lookup _ | .lookupBatch _ | .burnCompletion | .laneGrant | .captureClaim _ | .releaseClaim _
  | .teardownRequest _ | .pendingTeardown _ | .buildIdleExpiry _ | .proposalExpiry _ | .leaseExpiry _
  | .post _ _ _ | .fetch _ _ _ | .refetch _ _ _ | .drain _ _ _ | .status _ _ _ | .unknownTransactionKind _ _ _ _
  | .prstnAsserted _ _ | .prstnReleased _ | .rstnAsserted | .rstnReleased | .powerOn | .coldStartUp
  | .warmStartUp => none

/-- The port of a row that is a transaction on the link (Table 79). -/
def linkRow : Instr → Option Port
  | .post p _ _ | .fetch p _ _ | .refetch p _ _ | .drain p _ _ | .status p _ _ | .unknownTransactionKind p _ _ _ =>
    some p
  | .attach _ | .detach _ | .defineTable _ | .tableInfo _ | .proposeRetire _ | .storeInfo _ | .openBuild _
  | .appendPoints _ | .closeBuild _ | .cancelBuild _ | .approve _ | .veto _ | .withdraw _ | .hold _ | .renew _
  | .release _ | .lookup _ | .lookupBatch _ | .readPoints _ | .readOptions _ | .programOption _
  | .closeProvisioning _ | .burnCompletion | .laneGrant | .captureClaim _ | .releaseClaim _ | .teardownRequest _
  | .pendingTeardown _ | .buildIdleExpiry _ | .proposalExpiry _ | .leaseExpiry _ | .prstnAsserted _ _
  | .prstnReleased _ | .rstnAsserted | .rstnReleased | .powerOn | .coldStartUp | .warmStartUp => none

/-! ## The Point Store and its blocks -/

/-- The first law (R4): every block stands in exactly one place, the free list or the block list of one record. -/
def State.blockLaw (s : State) : Prop :=
  (s.freeList ++ blocksInUse s.records.toList).Perm (List.finRange 512)

/-- The Point Store's cells are in canonical form (log 10). -/
def State.storeLaw (s : State) : Prop := Memory.wf s.store

/-! ## Ports -/

/-- 1 while a POST has been decided ACCEPTED and its accept byte is still going out (R149). -/
def PortState.promised (x : PortState) : Nat :=
  match x.txn with
  | some ⟨_, .accepting _, _⟩ => 1
  | _ => 0

/-- The laws of one port: the window never exceeds 8, counting a frame already decided ACCEPTED (R150); the event queue
holds at most 16 records (R163); ATTN follows the queues (R156). -/
def PortState.law (x : PortState) : Prop :=
  x.window + x.promised ≤ 8 ∧ x.events.length ≤ 16 ∧ x.attn = x.wantsAttention

/-- The laws of all ports, and the session indication that follows the session entry (R116). -/
def State.portLaw (s : State) : Prop := ∀ p, (s.port p).law ∧ (s.port p).attached = s.isAttached p

/-! ## Sessions -/

/-- The session that an entry is in, current or ending (Table 63). -/
def SessionEntry.number (x : SessionEntry) : Option Session :=
  match x.state with
  | .detached => none
  | .attached n | .ending n => some n

/-- The fields of a session entry agree with its state (Table 63). -/
def SessionEntry.law (x : SessionEntry) : Prop :=
  match x.state with
  | .detached => x.teardownPending = false
  | .attached n => n = x.last ∧ n ≠ 0 ∧ x.teardownPending = false
  | .ending n => n = x.last ∧ n ≠ 0 ∧ x.teardownPending = true

/-- A stored session number is that of the port's session, current or ending. -/
def State.isSessionOf (s : State) (p : Port) (n : Session) : Prop := (s.session p).number = some n

/-- R116 and R122: the entries are as Table 63 has them, and every lease, build context and recorded approval carries
its port's current session number, or the ending one while the port is ENDING. So does a proposal for its proposer, until
the proposer's session has ended (R99). -/
def State.sessionLaw (s : State) : Prop :=
  (∀ p, (s.session p).law)
  ∧ (∀ e l, s.lease e = some l → s.isSessionOf l.port l.session)
  ∧ (∀ h c, s.context h = some c → s.isSessionOf c.owner c.session)
  ∧ (∀ e q (p : Port) n, s.proposal e = some q → q.approvals[p] = some n → s.isSessionOf p n)
  ∧ (∀ e q, s.proposal e = some q → q.proposerEnded = false → s.isSessionOf q.proposer q.session)

/-! ## Leases -/

/-- The sixth law (R102), while the part runs: at most one lease for a port and slot, at most LEASE_LIMIT for a port.
That the table holds at most 32 is its size. -/
def State.leaseLaw (s : State) : Prop :=
  s.isRunning = true →
    (∀ e e' l l', s.lease e = some l → s.lease e' = some l' → l.port = l'.port → l.slot = l'.slot → e = e')
    ∧ ∀ p, (s.leasesWhere (fun l => l.port == p)).length ≤ s.inUse.leaseLimit

/-! ## Slots -/

/-- The third law (R48) with what R46, R47 and R58 say of a slot record: the references of slots, contexts and proposal
entries name one another, no slot has both a build and a proposal, a VACANT slot holds nothing, a RETIRING slot holds
neither reference, and a slot with its latch set is LIVE with neither. -/
structure State.slotLaw (s : State) : Prop where
  build : ∀ k h, (s.slot k).build = some h ↔ ∃ c, s.context h = some c ∧ c.slot = k
  proposal : ∀ k e, (s.slot k).proposal = some e ↔ ∃ q, s.proposal e = some q ∧ q.slot = k
  notBoth : ∀ k, (s.slot k).build = none ∨ (s.slot k).proposal = none
  vacant : ∀ k, (s.slot k).state = .vacant → s.slot k = SlotRecord.vacant
  retiring : ∀ k d, (s.slot k).state = .retiring d →
    (s.slot k).build = none ∧ (s.slot k).proposal = none ∧ (s.slot k).fixedLatch = false
  latched : ∀ k, (s.slot k).fixedLatch = true →
    (∃ d r, (s.slot k).state = .live d r) ∧ (s.slot k).build = none ∧ (s.slot k).proposal = none

/-! ## Generations -/

/-- How many lease entries name the record (R9). -/
def State.leasesNaming (s : State) (r : RecordIndex) : Nat := (s.leasesWhere (fun l => l.record == r)).length

/-- How many lookups in flight captured the record (R9). -/
def State.capturesOf (s : State) (r : RecordIndex) : Nat :=
  ((List.finRange 2).filter (fun l => ((s.lane l).bind (·.capture)).any (fun c => c.record == r))).length

/-- A record is BUILDING with this declared count. -/
def GenRecord.isBuilding (g : GenRecord) (declared : Nat) : Prop := ∃ d, g.state = .building declared d

/-- A record is PENDING. -/
def GenRecord.isPending (g : GenRecord) : Prop := ∃ c, g.state = .pending c

/-- A record is CURRENT or SUPERSEDED: one that a reference may name (R9). -/
def GenRecord.mayBeNamed (g : GenRecord) : Prop := g.state.isCurrent = true ∨ g.state.isSuperseded = true

/-- Point count and block list as Table 11 gives them for the record's state (R6, R7). -/
def GenRecord.sizeLaw (g : GenRecord) : Prop :=
  match g.state with
  | .building declared _ =>
    2 ≤ declared ∧ declared ≤ 1024 ∧ g.pointCount ≤ declared ∧ g.blocks.length = blocksFor declared
  | .pending _ | .current _ | .superseded _ =>
    2 ≤ g.pointCount ∧ g.pointCount ≤ 1024 ∧ g.blocks.length = blocksFor g.pointCount

/-- The laws of the generation pool: the second (R47), fourth (R9), fifth (R10) and tenth (R11), with the links between
records, contexts, proposals, leases and lanes that they rest on (R7, R8, R61, R80). -/
structure State.generationLaw (s : State) : Prop where
  slots : s.slotLaw
  sizes : ∀ r g, s.record r = some g → g.sizeLaw
  current : ∀ k r, (s.slot k).state.current = some r ↔
    ∃ g, s.record r = some g ∧ g.slot = k ∧ g.state.isCurrent = true
  building : ∀ r g declared, s.record r = some g → g.isBuilding declared →
    ∃ h c, s.context h = some c ∧ c.record = r ∧ c.slot = g.slot
  context : ∀ h c, s.context h = some c →
    ∃ g declared, s.record c.record = some g ∧ g.slot = c.slot ∧ g.isBuilding declared
  pending : ∀ r g, s.record r = some g → g.isPending →
    ∃ e q, s.proposal e = some q ∧ q.change = .commit r ∧ q.slot = g.slot
  commit : ∀ e q r, s.proposal e = some q → q.change = .commit r →
    ∃ g, s.record r = some g ∧ g.slot = q.slot ∧ g.isPending
  superseded : ∀ r g, s.record r = some g → g.state.isSuperseded = true →
    g.refCount ≠ 0 ∧ (∀ d, (s.slot g.slot).state ≠ .defined d) ∧ (s.slot g.slot).state ≠ .vacant
  retiring : ∀ k d, (s.slot k).state = .retiring d → ∃ r g, s.record r = some g ∧ g.slot = k
  leased : ∀ e l, s.lease e = some l → ∃ g, s.record l.record = some g ∧ g.slot = l.slot ∧ g.mayBeNamed
  captured : ∀ i w c, s.lane i = some w → w.capture = some c → ∃ g, s.record c.record = some g ∧ g.mayBeNamed
  counted : s.isRunning = true → ∀ r g, s.record r = some g → g.refCount = s.leasesNaming r + s.capturesOf r
  numbered : ∀ k, (s.slot k).nextNumber ≠ 0
  numbers : ∀ r g, s.record r = some g → g.number ≠ 0
  distinct : ∀ r r' g g', s.record r = some g → s.record r' = some g' → g.slot = g'.slot → g.number = g'.number →
    r = r'
  atRest : s.isRunning = false → (∀ p, (s.port p).inExec = none) ∧ (∀ i, s.lane i = none)

/-- R1: the x values of the points stored in a record in use rise strictly. It is not asked from the assertion of a cold
reset to the end of the cold start-up, since power-on loses the Point Store before the records are cleared (log 10). -/
def State.risingLaw (s : State) : Prop :=
  s.phase ≠ .inReset .cold → s.phase ≠ .startUp .cold →
    ∀ r g ps, s.record r = some g → g.points s.store = some ps → ps.Pairwise (fun a b => a.x.toInt < b.x.toInt)

/-- What a generation that has left BUILDING keeps as long as its record is in use (R7, R16). -/
def GenRecord.sameTable (g g' : GenRecord) : Prop :=
  g'.slot = g.slot ∧ g'.number = g.number ∧ g'.interpolation = g.interpolation ∧ g'.extrapolation = g.extrapolation
  ∧ g'.pointCount = g.pointCount ∧ g'.blocks = g.blocks ∧ g'.state.checksum = g.state.checksum

end Sys2Proof.Machine
end

