-- ==== Sys2Proof/Certificates/Slice0/Obligations.lean ====
section
/-! DEFINITION. The statements for the provers, one `def Obligations.<Name> : Prop` each, listed in OBLIGATIONS.json.
Most say what one row of the table does in a state in which the part carries it out, as an equation for the next state:
what the equation does not name is unchanged. -/

open Sys2Proof Sys2Proof.Machine

/-! ## The queue and the choice of a command -/

/-- A step carries out the command at the front of the queue, with the queue's rest in place. -/
def Obligations.StepRunsFrontCommand : Prop :=
  ∀ (c : Instr) (rest : List Instr) (s : State),
    step { s with pending := c :: rest } = exec c { s with pending := rest }

/-- With no command waiting a step is 1 ms of the Timer Base, and nothing else, while the part runs and no deadline is
overdue and in a warm start-up; in a cold start-up it loads the shadow as well, and a port that the value loaded disables
carries no transaction from then on. While a deadline is overdue, and while RSTN is low, it changes nothing. This is the
model's choice (log 3, log 4, log 12). -/
def Obligations.EmptyQueueTicks : Prop :=
  ∀ s : State, s.pending = [] →
    (s.phase = .running → (∀ d ∈ s.deadlines, s.time ≤ d) → step s = .next { s with time := s.time + 1 })
    ∧ (s.phase = .running → (∃ d ∈ s.deadlines, d < s.time) → step s = .next s)
    ∧ (∀ k, s.phase = .inReset k → step s = .next s)
    ∧ (s.phase = .startUp .warm → step s = .next { s with time := s.time + 1 })
    ∧ (s.phase = .startUp .cold → ∃ t, step s = .next t
      ∧ t = { s with ports := t.ports, shadow := some s.loadShadow, time := s.time + 1 }
      ∧ ∀ p : Port,
        (s.loadShadow.portEnable.getLsbD p.val = true → t.port p = s.port p)
        ∧ (s.loadShadow.portEnable.getLsbD p.val = false → t.port p = { s.port p with txn := none, sent := [] }))

/-- R133 and R134: the head command `f` of port `p` is the next claim exactly when the part runs, the Table Manager
carries out no command, no teardown request waits, no deadline is overdue (log 4), no teardown is pending, and `p` is the
first eligible port from the control arbiter's pointer. R51, R98, R121 and R126: a pending teardown does not stand in the
way of an adoption on a slot that the ENDING port leases or whose proposal it has approved, nor of a TABLE_INFO on a slot
where it has a lease, a build or a recorded approval; either is taken first (log 23). The claims of the lanes do not stand
in the way: a lane presents its claim when it is taken (log 5). -/
def Obligations.ControlArbiterChoice : Prop :=
  ∀ (s : State) (p : Port) (f : Frame),
    let names := fun k : SlotIndex => ∃ b rest, f.payload = b :: rest ∧ b.toNat = k.val
    let leases := fun (q : Port) (k : SlotIndex) => ∃ e l, s.lease e = some l ∧ l.port = q ∧ l.slot = k
    let approved := fun (q : Port) (k : SlotIndex) => ∃ e x, s.proposal e = some x ∧ x.slot = k ∧ x.approvals[q] ≠ none
    let builds := fun (q : Port) (k : SlotIndex) => ∃ h c, s.context h = some c ∧ c.owner = q ∧ c.slot = k
    let adopts := fun r : CommandResult => ∃ u rest, r = .answer u .ok (0x01 :: rest)
    let adoptsOn := fun k : SlotIndex =>
      (f.kind = .approve ∧ names k ∧ adopts (approveBody p f s))
      ∨ (f.kind = .proposeRetire ∧ names k ∧ adopts (proposeRetireBody p f s))
      ∨ (f.kind = .closeBuild ∧ adopts (closeBuildBody p f s)
        ∧ ∃ b rest h c, f.payload = b :: rest ∧ b.toNat = h.val ∧ s.context h = some c ∧ c.slot = k)
    s.nextCommand p = some f ↔
      s.phase = .running
      ∧ (∀ q e, (s.port q).inExec = some e → e.frame.kind.isLookup = true ∨ ∃ b, s.burn = some b ∧ b.port = q)
      ∧ s.requests = []
      ∧ (∀ d ∈ s.deadlines, s.time ≤ d)
      ∧ (∀ q n, (s.session q).state = .ending n → (s.session q).teardownPending = true → ∃ k,
        (adoptsOn k ∧ (leases q k ∨ approved q k))
        ∨ (f.kind = .tableInfo ∧ names k ∧ (leases q k ∨ approved q k ∨ builds q k)))
      ∧ (s.port p).cmdQueue.head? = some f ∧ f.kind.isLookup = false
      ∧ s.isEnabled p = true ∧ (s.port p).resetting = false ∧ (s.port p).inExec = none
      ∧ ∃ i : Fin 4, p = s.controlPtr + i ∧ ∀ j : Fin 4, j < i → s.controlEligible (s.controlPtr + j) = false

/-- R130, R133 and R151: the command of a port that the Table Manager carries out is the one in execution since before
a port reset, or the head of the port's queue, which then leaves the queue and is in execution, the arbiter pointer
moving to the port after it. A row whose command is not carried out now changes nothing; that is the model's choice
(log 2). -/
def Obligations.CommandIsTakenFromItsPort : Prop :=
  (∀ (s t : State) (p : Port) (k : CommandKind) (f : Frame),
    s.claimCommand p k = some (f, t) ↔
      f.kind = k
      ∧ ((s.carrying = some p ∧ (∃ d, (s.port p).inExec = some ⟨f, d⟩) ∧ t = s)
        ∨ (s.nextCommand p = some f
          ∧ t = { s.setPort p { s.port p with cmdQueue := (s.port p).cmdQueue.tail, inExec := some ⟨f, false⟩ } with
                    controlPtr := p + 1 })))
  ∧ ∀ (c : Instr) (p : Port) (k : CommandKind) (s : State),
    controlRow c = some (p, k) → s.claimCommand p k = none → exec c s = .next s

/-- R119: every command but ATTACH, READ_OPTIONS and STORE_INFO is refused NOT_ATTACHED, and changes nothing, while the
port's entry is not ATTACHED: a control command when it is taken, a lookup when its capture claim is taken. -/
def Obligations.SessionIsRequired : Prop :=
  ∀ (s t : State) (p : Port) (f : Frame), (∀ n, (s.session p).state ≠ .attached n) →
    (∀ c k, controlRow c = some (p, k) → k ≠ .attach → k ≠ .readOptions → k ≠ .storeInfo →
      s.claimCommand p k = some (f, t) → answers c s p f t .notAttached [])
    ∧ (∀ l w, s.takesClaims = true → s.lane l = some w → w.capture = none → w.port = p →
      exec (.captureClaim l) s =
        .next ((s.deliverResponse p ⟨w.frame.kind, w.frame.tag, .notAttached, []⟩).setLane l none))

/-- R15, R49, R51, R52, R62, R64, R66, R68, R72, R85, R88, R104, R107, R108 and R172: a command of an attached port with
a slot above 63, a handle above 3, or another field out of its range is refused BAD_ARGUMENT, and changes nothing. -/
def Obligations.OutOfRangeFieldsAreBadArguments : Prop :=
  ∀ (s t : State) (p : Port) (f : Frame) (b : Byte) (rest : List Byte), s.isAttached p = true →
    f.payload = b :: rest →
    (∀ c k, controlRow c = some (p, k) → s.claimCommand p k = some (f, t) →
      (k ∈ [CommandKind.defineTable, .tableInfo, .proposeRetire, .openBuild, .approve, .veto, .withdraw, .hold, .renew,
            .release, .readPoints] → 63 < b.toNat → answers c s p f t .badArgument [])
      ∧ (k ∈ [CommandKind.appendPoints, .closeBuild, .cancelBuild] → 3 < b.toNat → answers c s p f t .badArgument []))
    ∧ (∀ (declared : Word) (im em : Byte), s.claimCommand p .openBuild = some (f, t) →
      rest = wordBytes declared ++ [im, em] →
      declared.toNat < 2 ∨ 1024 < declared.toNat ∨ 1 < im.toNat ∨ 2 < em.toNat →
        answers (.openBuild p) s p f t .badArgument [])
    ∧ (∀ (n : Byte) (points : List Point), s.claimCommand p .appendPoints = some (f, t) →
      rest = n :: points.flatMap Point.bytes → n = 0 ∨ 8 < n.toNat ∨ n.toNat ≠ points.length →
        answers (.appendPoints p) s p f t .badArgument [])
    ∧ (∀ (sel n : Byte) (i : Word), s.claimCommand p .readPoints = some (f, t) →
      rest = sel :: (wordBytes i ++ [n]) → 2 < sel.toNat ∨ n = 0 ∨ 8 < n.toNat ∨ 1023 < i.toNat →
        answers (.readPoints p) s p f t .badArgument [])
    ∧ (∀ v : Word, s.claimCommand p .programOption = some (f, t) → rest = wordBytes v →
      (b = 0 ∨ 8 < b.toNat ∨ ∃ x : FuseField, b = BitVec.ofNat 8 (x.index.val + 1) ∧ x.inRange v = false) →
        answers (.programOption p) s p f t .badArgument [])

/-- R142: a command taken from its queue that answers a status other than OK leaves everything as its taking left it,
but for its response, the idle deadline it restarts, and the build that a wrong checksum discards. -/
def Obligations.RefusedCommandChangesNothing : Prop :=
  ∀ (c : Instr) (p : Port) (k : CommandKind) (s t u : State) (f : Frame) (r : Response),
    controlRow c = some (p, k) → s.claimCommand p k = some (f, t) → (∃ e, (t.port p).inExec = some e ∧ e.discard = false) →
    exec c s = .next u → (u.port p).respQueue = (t.port p).respQueue ++ [r] → r.status ≠ .ok →
      (r = ⟨k, f.tag, r.status, []⟩)
      ∧ (u = t.deliverResponse p r
        ∨ (∃ h b, t.buildOf p h = some b ∧ u = (t.restartIdle b.record).deliverResponse p r
            ∧ ((k = .appendPoints ∧ (r.status = .buildOverrun ∨ r.status = .notMonotonic))
              ∨ (k = .closeBuild ∧ (r.status = .tooFewPoints ∨ r.status = .proposalFull))))
        ∨ (∃ h b, t.buildOf p h = some b ∧ k = .closeBuild ∧ r.status = .checksumMismatch
            ∧ u = (t.discardBuild h).deliverResponse p r))

/-- R132, R152, R158 and R125: the response of the command in execution joins the response queue and ATTN is asserted.
With the discard mark set it is discarded, and a discarded ATTACH response with status OK makes the port present a
teardown request and become RESETTING. R163 (Table 86), R165 and R166: an event record reaches a port only while its
session entry is ATTACHED. At a NORMAL port it joins the tail of the queue, or at 16 records is dropped and sets the lost
flag, and ATTN is asserted. A RESETTING port discards it. -/
def Obligations.ArrivalsAtAPort : Prop :=
  (∀ (s : State) (p : Port) (f : Frame) (r : Response),
    ((s.port p).inExec = some ⟨f, false⟩ →
      s.deliverResponse p r =
        s.setPort p { s.port p with inExec := none, respQueue := (s.port p).respQueue ++ [r], attn := true })
    ∧ ((s.port p).inExec = some ⟨f, true⟩ →
      (r.kind = .attach ∧ r.status = .ok →
        s.deliverResponse p r =
          { s.setPort p { s.port p with inExec := none, teardownOutstanding := true, resetting := true } with
            requests := s.requests ++ [p] })
      ∧ (¬(r.kind = .attach ∧ r.status = .ok) →
        s.deliverResponse p r = s.setPort p { s.port p with inExec := none })))
  ∧ ∀ (s : State) (p : Port) (e : EventRecord),
    ((∀ n, (s.session p).state ≠ .attached n) → s.deliverEvent p e = s)
    ∧ ((s.port p).resetting = true → s.deliverEvent p e = s)
    ∧ ((∃ n, (s.session p).state = .attached n) → (s.port p).resetting = false →
      ((s.port p).events.length < 16 →
        s.deliverEvent p e = s.setPort p { s.port p with events := (s.port p).events ++ [e], attn := true })
      ∧ (16 ≤ (s.port p).events.length →
        s.deliverEvent p e =
          s.setPort p { s.port p with lost := true, attn := true, txn := (s.port p).txn.map Txn.noteDrop }))

/-! ## Sessions (chapter 7) -/

/-- R117 and R118: an ATTACH from a DETACHED port begins the session after the last one, counting 1 after 255, and
answers the limits in the shadow; from a port ATTACHED or ENDING it is refused. -/
def Obligations.AttachBeginsSession : Prop :=
  ∀ (s t : State) (p : Port) (f : Frame), s.claimCommand p .attach = some (f, t) →
    ((s.session p).state = .detached →
      let n : Session := if (s.session p).last = 255 then 1 else (s.session p).last + 1
      let v := s.inUse
      answers (.attach p) s p f
        { t.setPort p { t.port p with attached := true } with
          sessions := t.sessions.set p { state := .attached n, last := n, teardownPending := false } } .ok
        ([n, BitVec.ofNat 8 p.val, BitVec.ofNat 8 v.leaseLimit] ++ countBytes v.leasePeriod
          ++ countBytes v.approvalWindow ++ countBytes v.buildIdle))
    ∧ ((s.session p).state ≠ .detached → answers (.attach p) s p f t .alreadyAttached [])

/-- R120: a DETACH from an ATTACHED port tears the session down and leaves the entry DETACHED with its last session
number, and answers the number of the session and the counts of what was removed; it is refused otherwise. -/
def Obligations.DetachEndsSession : Prop :=
  ∀ (s t : State) (p : Port) (f : Frame), s.claimCommand p .detach = some (f, t) →
    (∀ n, (s.session p).state = .attached n →
      ∃ u : State,
        u = { (t.teardown p n).setPort p { t.port p with attached := false } with
              sessions := t.sessions.set p { s.session p with state := .detached, teardownPending := false } }
        ∧ answers (.detach p) s p f u .ok
          [n, BitVec.ofNat 8 (s.leasesWhere (fun l => l.port == p)).length,
           BitVec.ofNat 8 ((List.finRange 4).countP (fun h =>
             (s.context h).any (fun c => c.owner == p && c.session == n))),
           BitVec.ofNat 8 ((List.finRange 8).countP (fun e =>
             (s.proposal e).any (fun q => q.approvals[p] == some n)))])
    ∧ ((∀ n, (s.session p).state ≠ .attached n) → answers (.detach p) s p f t .notAttached [])

/-- R122, R123, R114 and R77: the teardown of a port's session removes its leases, in ascending order of slot, and drops
the reference of each, then discards the builds it owns under the session, in ascending order of handle, and removes the
approvals recorded under it. R99 and R117: its port is from then on no proposer of the proposals it opened under it, by a
mark that is the model's (log 24). It leaves every other lease, build and proposal, every session entry and every port as they
stand. The records, the slots, the free list and the arm state of STORE_LOW are those that these removals leave in that
order; blocks only join the tail of the free list. -/
def Obligations.TeardownRemovesSession : Prop :=
  ∀ (s : State) (p : Port) (n : Session), ∃ t : State, t = s.teardown p n
    ∧ (∀ e, t.lease e = (s.lease e).filter (fun l => l.port != p))
    ∧ (∀ h, t.context h = (s.context h).filter (fun c => !(c.owner == p && c.session == n)))
    ∧ (∀ e, t.proposal e = (s.proposal e).map (fun q => { q with
        approvals := if q.approvals[p] = some n then q.approvals.set p none else q.approvals
        proposerEnded := q.proposerEnded || (q.proposer == p && q.session == n) }))
    ∧ (∃ blocks, t.freeList = s.freeList ++ blocks)
    ∧ (∃ (es : List LeaseIndex) (hs : List Handle),
      es.Nodup ∧ (∀ e, e ∈ es ↔ ∃ l, s.lease e = some l ∧ l.port = p)
      ∧ es.Pairwise (fun a b => ∀ l m, s.lease a = some l → s.lease b = some m → l.slot ≤ m.slot)
      ∧ hs.Pairwise (fun a b => a < b) ∧ (∀ h, h ∈ hs ↔ ∃ c, s.context h = some c ∧ c.owner = p ∧ c.session = n)
      ∧ let released := es.foldl (fun u e =>
          match s.lease e with
          | some l => u.dropReference l.record
          | none => u) s
        let discarded := hs.foldl State.discardBuild released
        t.records = discarded.records ∧ t.slots = discarded.slots ∧ t.freeList = discarded.freeList
        ∧ t.storeLowArmed = discarded.storeLowArmed)
    ∧ t = { s with freeList := t.freeList, records := t.records, storeLowArmed := t.storeLowArmed, slots := t.slots,
                   contexts := t.contexts, proposals := t.proposals, leases := t.leases }

/-- R121, R122 and R135: the oldest teardown request is taken as its port's session entry says, and the pending
teardown of the lowest-numbered port, when nothing goes before it, is carried out. The port then is NORMAL if PRSTN is
released. -/
def Obligations.TeardownRequestAndPendingTeardown : Prop :=
  ∀ (s : State) (p : Port),
    (∀ rest, s.takesClaims = true → s.requests = p :: rest →
      (∀ n, (s.session p).state = .attached n →
        exec (.teardownRequest p) s = .next { s.setPort p { s.port p with attached := false } with
          requests := rest
          sessions := s.sessions.set p { s.session p with state := .ending n, teardownPending := true } })
      ∧ (∀ n, (s.session p).state = .ending n → exec (.teardownRequest p) s = .next { s with requests := rest })
      ∧ ((s.session p).state = .detached →
        exec (.teardownRequest p) s = .next { s.setPort p { s.port p with
            teardownOutstanding := false, resetting := (s.port p).resetting && (s.port p).prstnLow } with
          requests := rest }))
    ∧ (∀ n, s.takesTeardowns = true → (s.session p).state = .ending n → (s.session p).teardownPending = true →
      (∀ q, q < p → ∀ m, (s.session q).state = .ending m → (s.session q).teardownPending = false) →
        exec (.pendingTeardown p) s = .next { (s.teardown p n).setPort p { s.port p with
            attached := false, teardownOutstanding := false,
            resetting := (s.port p).resetting && (s.port p).prstnLow } with
          sessions := s.sessions.set p { s.session p with state := .detached, teardownPending := false } })

/-! ## Slots (chapter 3) -/

/-- R49 and R50: the checks of DEFINE_TABLE in their order, and its effect. -/
def Obligations.DefineTableChecksAndEffect : Prop :=
  ∀ (s t : State) (p : Port) (f : Frame) (kb r b a : Byte),
    s.claimCommand p .defineTable = some (f, t) → f.payload = [kb, r, b, a] →
    let bad := 63 < kb.toNat ∨ b = 0 ∨ ¬s.allowedMask r ∨ ¬s.allowedMask b ∨ ¬s.allowedMask a
    (s.isAttached p = false → answers (.defineTable p) s p f t .notAttached [])
    ∧ (s.isAttached p = true → bad → answers (.defineTable p) s p f t .badArgument [])
    ∧ (∀ k : SlotIndex, k.val = kb.toNat → s.isAttached p = true → ¬bad →
      ((s.slot k).state ≠ .vacant → answers (.defineTable p) s p f t .slotState [])
      ∧ ((s.slot k).state = .vacant → s.inUse.definer.getLsbD p.val = false →
        answers (.defineTable p) s p f t .noAccess [])
      ∧ ((s.slot k).state = .vacant → s.inUse.definer.getLsbD p.val = true →
        answers (.defineTable p) s p f
          (t.setSlot k
            { state := .defined ⟨r.setWidth 4, b.setWidth 4, a.setWidth 4, p⟩, nextNumber := 1, build := none,
              proposal := none, fixedLatch := false }) .ok [kb]))

/-- R51 with the layout of R186: TABLE_INFO changes nothing and reports the slot. The first item is the state; a slot
that is VACANT, or not LIVE, has the fillers of R186 in place of what it does not have. -/
def Obligations.TableInfoReportsSlot : Prop :=
  ∀ (s t : State) (p : Port) (f : Frame) (kb : Byte) (k : SlotIndex),
    s.claimCommand p .tableInfo = some (f, t) → f.payload = [kb] →
    (s.isAttached p = false → answers (.tableInfo p) s p f t .notAttached [])
    ∧ (s.isAttached p = true → 63 < kb.toNat → answers (.tableInfo p) s p f t .badArgument [])
    ∧ (s.isAttached p = true → k.val = kb.toNat → ∃ head proposal lease : List Byte,
      answers (.tableInfo p) s p f t .ok
        (head ++ [if (s.slot k).build = none then 0 else 1] ++ proposal ++ lease
          ++ [if (s.slot k).fixedLatch then 1 else 0])
      ∧ ((s.slot k).state = .vacant → head = [0, 0, 0, 0, 0xFF, 0, 0, 0, 0, 0, 0])
      ∧ (∀ d, (s.slot k).state = .defined d →
        head = [1, d.readers.setWidth 8, d.builders.setWidth 8, d.approvers.setWidth 8, BitVec.ofNat 8 d.definer.val,
                0, 0, 0, 0, 0, 0])
      ∧ (∀ d, (s.slot k).state = .retiring d →
        head = [3, d.readers.setWidth 8, d.builders.setWidth 8, d.approvers.setWidth 8, BitVec.ofNat 8 d.definer.val,
                0, 0, 0, 0, 0, 0])
      ∧ (∀ d r g, (s.slot k).state = .live d r → s.record r = some g →
        head = [2, d.readers.setWidth 8, d.builders.setWidth 8, d.approvers.setWidth 8, BitVec.ofNat 8 d.definer.val]
          ++ wordBytes g.number ++ countBytes g.pointCount ++ [g.interpolation.code, g.extrapolation.code])
      ∧ ((s.slot k).proposal = none → proposal = [0, 0, 0, 0])
      ∧ (∀ e q, (s.slot k).proposal = some e → s.proposal e = some q → ∃ ports : Byte,
        proposal = [if q.change = .retire then 2 else 1] ++ wordBytes (s.numberOfChange q.change) ++ [ports]
        ∧ ports.toNat < 16 ∧ ∀ x : Port, ports.getLsbD x.val = (q.approvals[x]).isSome)
      ∧ (s.callersLease p k = none → lease = [0, 0])
      ∧ (∀ i l, s.callersLease p k = some (i, l) → lease = wordBytes (s.numberOf l.record)))

/-- R52 and R53: the checks of PROPOSE_RETIRE in their order, and the opening of the RETIRE proposal. An approver other
than the proposer makes the proposal need an entry. -/
def Obligations.ProposeRetireChecksAndEffect : Prop :=
  ∀ (s t : State) (p : Port) (f : Frame) (kb : Byte),
    s.claimCommand p .proposeRetire = some (f, t) → f.payload = [kb] →
    (s.isAttached p = false → answers (.proposeRetire p) s p f t .notAttached [])
    ∧ (s.isAttached p = true → 63 < kb.toNat → answers (.proposeRetire p) s p f t .badArgument [])
    ∧ (∀ (k : SlotIndex) (n : Session), k.val = kb.toNat → (s.session p).state = .attached n →
      ((s.slot k).state.definition = none ∨ (∃ d, (s.slot k).state = .retiring d) →
        answers (.proposeRetire p) s p f t .slotState [])
      ∧ ∀ d, (s.slot k).state = .defined d ∨ (∃ r, (s.slot k).state = .live d r) →
        let needs := ∃ q : Port, d.approvers.getLsbD q.val = true ∧ q ≠ p
        let full := ∀ e, s.proposal e ≠ none
        (d.builders.getLsbD p.val = false → answers (.proposeRetire p) s p f t .noAccess [])
        ∧ (d.builders.getLsbD p.val = true → (s.slot k).fixedLatch = true →
          answers (.proposeRetire p) s p f t .slotFixed [])
        ∧ (d.builders.getLsbD p.val = true → (s.slot k).fixedLatch = false →
          ((s.slot k).build ≠ none → answers (.proposeRetire p) s p f t .buildOpen [])
          ∧ ((s.slot k).build = none →
            ((s.slot k).proposal ≠ none → answers (.proposeRetire p) s p f t .proposalOpen [])
            ∧ ((s.slot k).proposal = none → needs → full →
              answers (.proposeRetire p) s p f t .proposalFull [])
            ∧ ((s.slot k).proposal = none → needs → ¬full →
              answers (.proposeRetire p) s p f (t.openChange k .retire p n).1 .ok [0x00])
            ∧ ((s.slot k).proposal = none → ¬needs →
              answers (.proposeRetire p) s p f (t.openChange k .retire p n).1 .ok [0x01]))))

/-! ## The store (chapter 1) -/

/-- R13: STORE_INFO needs no session, changes nothing and answers the five free counts and the arm state. -/
def Obligations.StoreInfoReportsFreeResources : Prop :=
  ∀ (s t : State) (p : Port) (f : Frame), s.claimCommand p .storeInfo = some (f, t) →
    answers (.storeInfo p) s p f t .ok
      (countBytes s.freeList.length
        ++ [BitVec.ofNat 8 ((List.finRange 128).countP (fun r => s.record r == none)),
            BitVec.ofNat 8 ((List.finRange 4).countP (fun h => s.context h == none)),
            BitVec.ofNat 8 ((List.finRange 8).countP (fun e => s.proposal e == none)),
            BitVec.ofNat 8 ((List.finRange 32).countP (fun e => s.lease e == none)),
            if s.storeLowArmed then 0x01 else 0x00])

/-- R2: a run of points written to a canonical store at consecutive indices of a block list without repetition reads
back, and every byte
outside the locations of those points is as before. The canonical form of the store is kept by the run and by every step;
that form is the model's (log 10). -/
def Obligations.WrittenPointsReadBack : Prop :=
  (∀ (m m' : Memory) (blocks : List BlockIndex) (i : Nat) (ps : List Point),
    Memory.wf m → blocks.Nodup → writeRun blocks m i ps = some m' →
      readRun m' blocks i ps.length = some ps
      ∧ (∀ a : Nat, (∀ j x, i ≤ j → j < i + ps.length → locate blocks j = some x → ¬(x ≤ a ∧ a < x + 4)) →
          readByte m' a = readByte m a)
      ∧ Memory.wf m')
  ∧ ∀ s t : State, s.storeLaw → step s = .next t → t.storeLaw

/-- R14 and R15: READ_POINTS of an attached port changes nothing. Its fields in range, the checks on the slot's state, on
rights and on conflicts come in their order for each selector; then it answers the number, the point count and the
checksum of the record selected and the points asked for, each from the location R2 gives, or is refused when they go
beyond the point count. -/
def Obligations.ReadPointsReturnsStoredPoints : Prop :=
  ∀ (s t : State) (p : Port) (f : Frame) (k : SlotIndex) (sel : Byte) (i n : Nat),
    s.claimCommand p .readPoints = some (f, t) →
    f.payload = [BitVec.ofNat 8 k.val, sel] ++ countBytes i ++ [BitVec.ofNat 8 n] →
    s.isAttached p = true → i < 1024 → 1 ≤ n → n ≤ 8 →
    let refused := fun st : Status => answers (.readPoints p) s p f t st []
    (sel = 0 →
      ((∀ d r, (s.slot k).state ≠ .live d r) → refused .notLive)
      ∧ (∀ d r, (s.slot k).state = .live d r → d.readers.getLsbD p.val = false → refused .noAccess))
    ∧ (sel = 1 ∨ sel = 2 → (s.slot k).state = .vacant → refused .slotState)
    ∧ (∀ d, (s.slot k).state.definition = some d →
      (sel = 1 →
        (d.readers.getLsbD p.val = false → refused .noAccess)
        ∧ (d.readers.getLsbD p.val = true → s.callersLease p k = none → refused .noLease))
      ∧ (sel = 2 →
        (d.approvers.getLsbD p.val = false → d.builders.getLsbD p.val = false → refused .noAccess)
        ∧ (d.approvers.getLsbD p.val = true ∨ d.builders.getLsbD p.val = true →
          ((s.slot k).proposal = none → refused .noProposal)
          ∧ (∀ e q, (s.slot k).proposal = some e → s.proposal e = some q → q.change = .retire →
            refused .noProposal))))
    ∧ ∀ (r : RecordIndex) (g : GenRecord),
      ((sel = 0 ∧ ∃ d, (s.slot k).state = .live d r ∧ d.readers.getLsbD p.val = true)
        ∨ (sel = 1 ∧ ∃ d e l, (s.slot k).state.definition = some d ∧ d.readers.getLsbD p.val = true
            ∧ s.callersLease p k = some (e, l) ∧ l.record = r)
        ∨ (sel = 2 ∧ ∃ d e q, (s.slot k).state.definition = some d
            ∧ (d.approvers.getLsbD p.val = true ∨ d.builders.getLsbD p.val = true)
            ∧ (s.slot k).proposal = some e ∧ s.proposal e = some q ∧ q.change = .commit r)) →
      s.record r = some g →
      (g.pointCount < i + n → refused .badArgument)
      ∧ (i + n ≤ g.pointCount → g.pointCount ≤ 16 * g.blocks.length → ∃ ps : List Point,
        ps.length = n
        ∧ (∀ j, j < n → ∃ b, g.blocks[(i + j) / 16]? = some b
            ∧ ps[j]? = some (readPoint s.store ((b.val * 16 + (i + j) % 16) * 4)))
        ∧ answers (.readPoints p) s p f t .ok
            (wordBytes g.number ++ countBytes g.pointCount ++ wordBytes (g.state.checksum.getD 0)
              ++ [BitVec.ofNat 8 n] ++ ps.flatMap Point.bytes))

/-- R8, R9, R10 and R57: a reference that ends lowers the count by one; a SUPERSEDED record left with none is freed in
the same event, its blocks joining the tail of the free list, and STORE_LOW is re-armed at 64 free blocks; a RETIRING
slot that it leaves without records becomes VACANT. -/
def Obligations.DroppedReferenceFreesSuperseded : Prop :=
  ∀ (s : State) (r : RecordIndex) (g : GenRecord), s.record r = some g → g.refCount ≠ 0 → g.blocks ≠ [] →
    ((g.refCount ≠ 1 ∨ g.state.isSuperseded = false) →
      s.dropReference r = { s with records := s.records.set r (some { g with refCount := g.refCount - 1 }) })
    ∧ (g.refCount = 1 → g.state.isSuperseded = true →
      let free := s.freeList ++ g.blocks
      let freed : State := { s.setRecord r none with
        freeList := free
        storeLowArmed := s.storeLowArmed || decide (64 ≤ free.length) }
      let last := ∀ r' g', r' ≠ r → s.record r' = some g' → g'.slot ≠ g.slot
      ((∃ d, (s.slot g.slot).state = .retiring d) → last →
        s.dropReference r = freed.setSlot g.slot SlotRecord.vacant)
      ∧ (¬((∃ d, (s.slot g.slot).state = .retiring d) ∧ last) → s.dropReference r = freed))

/-! ## Builds (chapter 4) -/

/-- R11: while some record is FREE, the number OPEN_BUILD assigns is not 0 and no record in use of the slot carries it,
and it is the next generation number itself when no record in use of the slot carries that. -/
def Obligations.AssignedNumberIsFresh : Prop :=
  ∀ (s : State) (k : SlotIndex), (s.slot k).nextNumber ≠ 0 → (∃ r, s.record r = none) →
    s.newNumber k ≠ 0
    ∧ (∀ r g, s.record r = some g → g.slot = k → g.number ≠ s.newNumber k)
    ∧ ((∀ r g, s.record r = some g → g.slot = k → g.number ≠ (s.slot k).nextNumber) →
      s.newNumber k = (s.slot k).nextNumber)

/-- R64, R5, R7, R17 and R73: the checks of OPEN_BUILD from the slot's state on, in their order, and its effect: the
lowest FREE context and record, the blocks at the head of the free list, the number of R11 and the idle deadline. A
reserve that takes an armed mechanism from 32 or more free blocks to fewer delivers STORE_LOW and disarms it. -/
def Obligations.OpenBuildChecksAndEffect : Prop :=
  ∀ (s t : State) (p : Port) (f : Frame) (n : Session) (k : SlotIndex) (declared : Nat)
    (im : Interpolation) (em : Extrapolation),
    s.claimCommand p .openBuild = some (f, t) →
    f.payload = [BitVec.ofNat 8 k.val] ++ countBytes declared ++ [im.code, em.code] →
    2 ≤ declared → declared ≤ 1024 → (s.session p).state = .attached n →
    let need := (declared + 15) / 16
    ((s.slot k).state = .vacant ∨ (∃ d, (s.slot k).state = .retiring d) →
      answers (.openBuild p) s p f t .slotState [])
    ∧ ∀ d, (s.slot k).state = .defined d ∨ (∃ r, (s.slot k).state = .live d r) →
      (d.builders.getLsbD p.val = false → answers (.openBuild p) s p f t .noAccess [])
      ∧ (d.builders.getLsbD p.val = true →
        ((s.slot k).fixedLatch = true → answers (.openBuild p) s p f t .slotFixed [])
        ∧ ((s.slot k).fixedLatch = false → (s.slot k).build ≠ none → answers (.openBuild p) s p f t .buildOpen [])
        ∧ ((s.slot k).fixedLatch = false → (s.slot k).build = none →
          ((s.slot k).proposal ≠ none → answers (.openBuild p) s p f t .proposalOpen [])
          ∧ ((s.slot k).proposal = none →
            ((∀ h, s.context h ≠ none) → answers (.openBuild p) s p f t .noContext [])
            ∧ ∀ h, s.context h = none → (∀ h', h' < h → s.context h' ≠ none) →
              ((∀ r, s.record r ≠ none) → answers (.openBuild p) s p f t .noRecord [])
              ∧ ∀ r, s.record r = none → (∀ r', r' < r → s.record r' ≠ none) →
                (s.freeList.length < need → answers (.openBuild p) s p f t .noSpace [])
                ∧ (need ≤ s.freeList.length →
                  let number := s.newNumber k
                  let g : GenRecord :=
                    { slot := k, number := number, state := .building declared (s.time + s.inUse.buildIdle),
                      interpolation := im, extrapolation := em, pointCount := 0, blocks := s.freeList.take need,
                      refCount := 0 }
                  let u : State :=
                    { ((t.setRecord r (some g)).setContext h (some ⟨k, r, p, n⟩)).setSlot k
                        { s.slot k with nextNumber := if number = 65535 then 1 else number + 1, build := some h } with
                      freeList := s.freeList.drop need }
                  let low := s.storeLowArmed = true ∧ 32 ≤ s.freeList.length ∧ s.freeList.length - need < 32
                  (¬low → answers (.openBuild p) s p f u .ok ([BitVec.ofNat 8 h.val] ++ wordBytes number))
                  ∧ (low → answers (.openBuild p) s p f
                      { u.deliverWhere (fun q => s.inUse.definer.getLsbD q.val)
                          ⟨.storeLow, 0, BitVec.ofNat 16 (s.freeList.length - need), .zero, none⟩ with
                        storeLowArmed := false } .ok ([BitVec.ofNat 8 h.val] ++ wordBytes number))))))

/-- R62, R66, R67 and R74: APPEND_POINTS of an attached port, its fields in range: the handle check, then for the owner of
the build the two checks on the frame, both of which leave only a restarted idle deadline, and the effect, which stores
the points after those already there. -/
def Obligations.AppendPointsChecksAndEffect : Prop :=
  ∀ (s t : State) (p : Port) (f : Frame) (n : Session) (h : Handle) (points : List Point),
    s.claimCommand p .appendPoints = some (f, t) →
    f.payload = [BitVec.ofNat 8 h.val, BitVec.ofNat 8 points.length] ++ points.flatMap Point.bytes →
    1 ≤ points.length → points.length ≤ 8 → (s.session p).state = .attached n →
    ((∀ b, s.context h = some b → b.owner ≠ p ∨ b.session ≠ n) → answers (.appendPoints p) s p f t .buildUnknown [])
    ∧ ∀ (b : BuildContext) (g : GenRecord) (declared : Nat) (dl : Time) (before : List Point),
      s.context h = some b → b.owner = p → b.session = n →
      s.record b.record = some g → g.state = .building declared dl →
      g.points s.store = some before → declared ≤ 16 * g.blocks.length →
      let restarted := s.time + s.inUse.buildIdle
      let held : GenRecord := { g with state := .building declared restarted }
      let inOrder := (before ++ points).Pairwise (fun a c => a.x.toInt < c.x.toInt)
      (declared < g.pointCount + points.length →
        answers (.appendPoints p) s p f (t.setRecord b.record (some held)) .buildOverrun [])
      ∧ (g.pointCount + points.length ≤ declared → before.Pairwise (fun a c => a.x.toInt < c.x.toInt) →
        (¬inOrder → answers (.appendPoints p) s p f (t.setRecord b.record (some held)) .notMonotonic [])
        ∧ (inOrder → ∃ m', writeRun g.blocks s.store g.pointCount points = some m'
          ∧ answers (.appendPoints p) s p f
            { t.setRecord b.record (some { held with pointCount := g.pointCount + points.length }) with
              store := m' } .ok (countBytes (g.pointCount + points.length))))

/-- R62, R68, R70 and R71: CLOSE_BUILD of an attached port, its handle in range: the handle check, then for the owner of
the build the three checks that pass it, and the effect: the block list is trimmed, the unused blocks return, the
context and the slot's build reference are cleared, and the COMMIT is opened. -/
def Obligations.CloseBuildChecksAndEffect : Prop :=
  ∀ (s t : State) (p : Port) (f : Frame) (n : Session) (h : Handle) (expected : Word),
    s.claimCommand p .closeBuild = some (f, t) →
    f.payload = [BitVec.ofNat 8 h.val] ++ wordBytes expected → (s.session p).state = .attached n →
    ((∀ b, s.context h = some b → b.owner ≠ p ∨ b.session ≠ n) → answers (.closeBuild p) s p f t .buildUnknown [])
    ∧ ∀ (b : BuildContext) (g : GenRecord) (declared : Nat) (dl : Time) (points : List Point),
      s.context h = some b → b.owner = p → b.session = n →
      s.record b.record = some g → g.state = .building declared dl → g.points s.store = some points →
      let restarted := t.setRecord b.record (some { g with state := .building declared (s.time + s.inUse.buildIdle) })
      let approvers := s.maskOf b.slot (fun d => d.approvers)
      let needs := ∃ q : Port, approvers.getLsbD q.val = true ∧ q ≠ p
      let full := ∀ e, s.proposal e ≠ none
      let sum := crc16 (points.flatMap Point.bytes)
      let kept := (g.pointCount + 15) / 16
      let trimmed := ((t.setRecord b.record (some { g with blocks := g.blocks.take kept, state := .pending sum })).returnBlocks
        (g.blocks.drop kept)).setContext h none
      let closed := trimmed.setSlot b.slot { s.slot b.slot with build := none }
      (g.pointCount < 2 → answers (.closeBuild p) s p f restarted .tooFewPoints [])
      ∧ (2 ≤ g.pointCount →
        (sum ≠ expected → answers (.closeBuild p) s p f (t.discardBuild h) .checksumMismatch [])
        ∧ (sum = expected → needs → full → answers (.closeBuild p) s p f restarted .proposalFull [])
        ∧ (sum = expected → needs → ¬full →
          answers (.closeBuild p) s p f (closed.openChange b.slot (.commit b.record) p n).1 .ok
            ([0x00] ++ wordBytes g.number))
        ∧ (sum = expected → ¬needs →
          answers (.closeBuild p) s p f (closed.openChange b.slot (.commit b.record) p n).1 .ok
            ([0x01] ++ wordBytes g.number)))

/-- R62, R63 and R72: CANCEL_BUILD discards the build of its owner: the whole block list joins the tail of the free
list, the record and the context become FREE and the slot's build reference absent; from any other port or session it
is refused. -/
def Obligations.CancelBuildDiscards : Prop :=
  ∀ (s t : State) (p : Port) (f : Frame) (n : Session) (h : Handle),
    s.claimCommand p .cancelBuild = some (f, t) → f.payload = [BitVec.ofNat 8 h.val] →
    (s.session p).state = .attached n →
    ((∀ b, s.context h = some b → b.owner ≠ p ∨ b.session ≠ n) → answers (.cancelBuild p) s p f t .buildUnknown [])
    ∧ (∀ b g declared dl, s.context h = some b → b.owner = p → b.session = n →
        s.record b.record = some g → g.state = .building declared dl → g.blocks ≠ [] →
        let free := s.freeList ++ g.blocks
        let discarded : State :=
          { ((t.setRecord b.record none).setContext h none).setSlot b.slot { s.slot b.slot with build := none } with
            freeList := free
            storeLowArmed := s.storeLowArmed || decide (64 ≤ free.length) }
        t.discardBuild h = discarded ∧ answers (.cancelBuild p) s p f discarded .ok (wordBytes g.number))

/-! ## Changes and proposals (chapter 5) -/

/-- R82, R83 and R84: a change opens with the slot's approver mask as the captured set. When a port of it other than the
proposer has to approve, the lowest FREE entry holds the proposal and the other approvers are told; otherwise the
change is adopted at once and the slot's readers are told. -/
def Obligations.OpeningAChange : Prop :=
  ∀ (s : State) (k : SlotIndex) (c : Change) (p : Port) (n : Session),
    let approvers := s.maskOf k (fun d => d.approvers)
    let readers := s.maskOf k (fun d => d.readers)
    let needs := ∃ q : Port, approvers.getLsbD q.val = true ∧ q ≠ p
    (needs → ∀ e, s.proposal e = none → (∀ e', e' < e → s.proposal e' ≠ none) →
      ∃ approvals : Vector (Option Session) 4,
        (∀ q : Port, approvals[q] = if q = p ∧ approvers.getLsbD p.val = true then some n else none)
        ∧ s.openChange k c p n =
          (((s.setProposal e (some ⟨k, c, p, n, false, approvers, approvals, s.time + s.inUse.approvalWindow⟩)).setSlot k
              { s.slot k with proposal := some e }).deliverWhere
            (fun q => approvers.getLsbD q.val && q != p)
            ⟨.proposalOpened, k, s.numberOfChange c, .ofChange (decide (c = .retire)), some p⟩, .pending))
    ∧ (¬needs → s.openChange k c p n =
        ((s.adopt k c).deliverWhere (fun q => readers.getLsbD q.val)
          ⟨.generationChanged, k, s.numberOfChange c, .zero, none⟩, .adopted))

/-- R54, R58 and R91: the adoption of a COMMIT makes the record CURRENT and the slot LIVE, sets the fixed latch of a slot
below FIXED_SLOTS, and supersedes the record that was CURRENT, which is freed in the same event without a reference.
R55, R57 and R92: the adoption of a RETIRE vacates a DEFINED slot; a LIVE slot becomes RETIRING with its CURRENT record
superseded, and is VACANT at once when that record has no reference and no other record of the slot is in use. -/
def Obligations.AdoptionChangesSlotAndRecords : Prop :=
  ∀ (s : State) (k : SlotIndex) (d : TableDef),
    (∀ r g c, s.record r = some g → g.state = .pending c →
      let slot' : SlotRecord :=
        { s.slot k with state := .live d r, fixedLatch := (s.slot k).fixedLatch || decide (k.val < s.inUse.fixedSlots) }
      let adopted := (s.setRecord r (some { g with state := .current c })).setSlot k slot'
      ((s.slot k).state = .defined d → s.adopt k (.commit r) = adopted)
      ∧ (∀ old g' c', (s.slot k).state = .live d old → old ≠ r → s.record old = some g' → g'.state = .current c' →
          g'.slot = k → g'.blocks ≠ [] →
        (g'.refCount ≠ 0 →
          s.adopt k (.commit r) = adopted.setRecord old (some { g' with state := .superseded c' }))
        ∧ (g'.refCount = 0 →
          let free := s.freeList ++ g'.blocks
          s.adopt k (.commit r) = { adopted.setRecord old none with
            freeList := free
            storeLowArmed := s.storeLowArmed || decide (64 ≤ free.length) })))
    ∧ ((s.slot k).state = .defined d → s.adopt k .retire = s.setSlot k SlotRecord.vacant)
    ∧ (∀ r g c, (s.slot k).state = .live d r → s.record r = some g → g.state = .current c → g.slot = k →
        g.blocks ≠ [] →
      let retiring := s.setSlot k { s.slot k with state := .retiring d }
      (g.refCount ≠ 0 → s.adopt k .retire = retiring.setRecord r (some { g with state := .superseded c }))
      ∧ (g.refCount = 0 →
        let free := s.freeList ++ g.blocks
        let freed : State := { retiring.setRecord r none with
          freeList := free
          storeLowArmed := s.storeLowArmed || decide (64 ≤ free.length) }
        ((∀ r' g', r' ≠ r → s.record r' = some g' → g'.slot ≠ k) →
          s.adopt k .retire = freed.setSlot k SlotRecord.vacant)
        ∧ ((∃ r' g', r' ≠ r ∧ s.record r' = some g' ∧ g'.slot = k) → s.adopt k .retire = freed)))

/-- R90, R93, R94 and R95: a resolution applies its outcome, clears the slot's reference and the entry, tells the
proposer's session and the captured set, and at an adoption tells the readers as they stood before it. An outcome
other than ADOPTED frees the record of a COMMIT and nothing else. R99: a later session of the proposer's port is told only
as one of the captured set (the mark of an ended proposer is the model's, log 24). -/
def Obligations.ResolutionOfAProposal : Prop :=
  ∀ (s : State) (e : ProposalIndex) (q : Proposal), s.proposal e = some q →
    let readers := s.maskOf q.slot (fun d => d.readers)
    let number := s.numberOfChange q.change
    let cleared : State → State := fun u => (u.setSlot q.slot { u.slot q.slot with proposal := none }).setProposal e none
    let told : State → ProposalOutcome → State := fun u o =>
      u.deliverWhere
        (fun x => (x == q.proposer && u.isUnder x q.session && !q.proposerEnded) || q.approvers.getLsbD x.val)
        ⟨.proposalResolved, q.slot, number, .ofOutcome o, some q.proposer⟩
    s.resolve e .adopted =
      (told (cleared (s.adopt q.slot q.change)) .adopted).deliverWhere (fun x => readers.getLsbD x.val)
        ⟨.generationChanged, q.slot, number, .zero, none⟩
    ∧ ∀ o, o = .rejected ∨ o = .lapsed ∨ o = .withdrawn →
      (q.change = .retire → s.resolve e o = told (cleared s) o)
      ∧ (∀ r g c, q.change = .commit r → s.record r = some g → g.state = .pending c → g.blocks ≠ [] →
        let free := s.freeList ++ g.blocks
        s.resolve e o = told (cleared { s.setRecord r none with
          freeList := free
          storeLowArmed := s.storeLowArmed || decide (64 ≤ free.length) }) o)

/-- R85 and R86: the checks of APPROVE in their order, and its effect: the approval is recorded, and the approval that
leaves none outstanding adopts the proposal. -/
def Obligations.ApproveChecksAndEffect : Prop :=
  ∀ (s t : State) (p : Port) (f : Frame) (kb : Byte) (number : Word),
    s.claimCommand p .approve = some (f, t) → f.payload = [kb] ++ wordBytes number →
    (s.isAttached p = false → answers (.approve p) s p f t .notAttached [])
    ∧ (s.isAttached p = true → 63 < kb.toNat → answers (.approve p) s p f t .badArgument [])
    ∧ (∀ (k : SlotIndex) n, k.val = kb.toNat → (s.session p).state = .attached n →
      ((s.slot k).proposal = none → answers (.approve p) s p f t .noProposal [])
      ∧ ∀ e q, (s.slot k).proposal = some e → s.proposal e = some q →
        (q.approvers.getLsbD p.val = false → answers (.approve p) s p f t .notApprover [])
        ∧ (q.approvers.getLsbD p.val = true → number ≠ s.numberOfChange q.change →
          answers (.approve p) s p f t .staleProposal [])
        ∧ (q.approvers.getLsbD p.val = true → number = s.numberOfChange q.change →
          ∃ q' : Proposal,
            q' = { q with approvals := if q.approvals[p] = none then q.approvals.set p (some n) else q.approvals }
            ∧ let left := (List.finRange 4).countP (fun x => q.approvers.getLsbD x.val && (q'.approvals[x]).isNone)
              (left = 0 → answers (.approve p) s p f ((t.setProposal e (some q')).resolve e .adopted) .ok [0x01, 0x00])
              ∧ (left ≠ 0 → answers (.approve p) s p f (t.setProposal e (some q')) .ok [0x00, BitVec.ofNat 8 left])))

/-- R85, R87 and R88: a VETO or a WITHDRAW on a slot without an open proposal is refused. A VETO from the captured set that
names the number resolves the proposal REJECTED; a WITHDRAW from the proposer's port and session resolves it WITHDRAWN;
from any other they are refused. R99, R118: a WITHDRAW is refused NOT_PROPOSER also when the proposer's session has ended
and a later one has its number (the mark of an ended proposer is the model's, log 24). -/
def Obligations.VetoAndWithdrawResolve : Prop :=
  ∀ (s t : State) (p : Port) (f : Frame) (k : SlotIndex) (n : Session), (s.session p).state = .attached n →
    (∀ number, s.claimCommand p .veto = some (f, t) → f.payload = [BitVec.ofNat 8 k.val] ++ wordBytes number →
      ((s.slot k).proposal = none → answers (.veto p) s p f t .noProposal [])
      ∧ ∀ e q, (s.slot k).proposal = some e → s.proposal e = some q →
        (q.approvers.getLsbD p.val = false → answers (.veto p) s p f t .notApprover [])
        ∧ (q.approvers.getLsbD p.val = true → number ≠ s.numberOfChange q.change →
          answers (.veto p) s p f t .staleProposal [])
        ∧ (q.approvers.getLsbD p.val = true → number = s.numberOfChange q.change →
          answers (.veto p) s p f (t.resolve e .rejected) .ok [0x02]))
    ∧ (s.claimCommand p .withdraw = some (f, t) → f.payload = [BitVec.ofNat 8 k.val] →
      ((s.slot k).proposal = none → answers (.withdraw p) s p f t .noProposal [])
      ∧ ∀ e q, (s.slot k).proposal = some e → s.proposal e = some q →
        (¬(q.proposer = p ∧ q.session = n) ∨ q.proposerEnded = true → answers (.withdraw p) s p f t .notProposer [])
        ∧ (q.proposer = p → q.session = n → q.proposerEnded = false →
          answers (.withdraw p) s p f (t.resolve e .withdrawn) .ok
            ([0x04] ++ wordBytes (s.numberOfChange q.change))))

/-! ## Leases (chapter 6) -/

/-- R103, R104 and R105: the checks of HOLD in their order, and its effect: the lowest FREE entry holds the lease, and
the CURRENT record gains a reference. -/
def Obligations.HoldChecksAndEffect : Prop :=
  ∀ (s t : State) (p : Port) (f : Frame) (kb : Byte),
    s.claimCommand p .hold = some (f, t) → f.payload = [kb] →
    (s.isAttached p = false → answers (.hold p) s p f t .notAttached [])
    ∧ (s.isAttached p = true → 63 < kb.toNat → answers (.hold p) s p f t .badArgument [])
    ∧ (∀ (k : SlotIndex) n, k.val = kb.toNat → (s.session p).state = .attached n →
      ((∀ d r, (s.slot k).state ≠ .live d r) → answers (.hold p) s p f t .notLive [])
      ∧ ∀ d r, (s.slot k).state = .live d r →
        (d.readers.getLsbD p.val = false → answers (.hold p) s p f t .noAccess [])
        ∧ (d.readers.getLsbD p.val = true →
          ((∃ e l, s.lease e = some l ∧ l.port = p ∧ l.slot = k) → answers (.hold p) s p f t .leaseHeld [])
          ∧ ((∀ e l, s.lease e = some l → l.port = p → l.slot ≠ k) →
            let held := (List.finRange 32).countP (fun e => (s.lease e).any (fun l => l.port == p))
            (s.inUse.leaseLimit ≤ held → answers (.hold p) s p f t .leaseLimitReached [])
            ∧ (held < s.inUse.leaseLimit → (∀ e, s.lease e ≠ none) → answers (.hold p) s p f t .leaseFull [])
            ∧ (∀ e g, held < s.inUse.leaseLimit → s.lease e = none → (∀ e', e' < e → s.lease e' ≠ none) →
              s.record r = some g →
              answers (.hold p) s p f
                ((t.setLease e (some ⟨p, n, k, r, s.time + s.inUse.leasePeriod⟩)).setRecord r
                  (some { g with refCount := g.refCount + 1 })) .ok (wordBytes g.number)))))

/-- R107, R108 and R111: RENEW moves the expiry of the caller's lease and nothing else, and says whether its record is
still the slot's CURRENT one; RELEASE frees the entry and drops the reference. Without a lease both are refused. -/
def Obligations.RenewAndRelease : Prop :=
  ∀ (s t : State) (p : Port) (f : Frame) (k : SlotIndex), s.isAttached p = true → f.payload = [BitVec.ofNat 8 k.val] →
    (s.claimCommand p .renew = some (f, t) →
      (s.callersLease p k = none → answers (.renew p) s p f t .noLease [])
      ∧ (∀ e l g, s.callersLease p k = some (e, l) → s.record l.record = some g →
        answers (.renew p) s p f (t.setLease e (some { l with expiry := s.time + s.inUse.leasePeriod })) .ok
          (wordBytes g.number ++ [if (s.slot k).state.current = some l.record then 1 else 0])))
    ∧ (s.claimCommand p .release = some (f, t) →
      (s.callersLease p k = none → answers (.release p) s p f t .noLease [])
      ∧ (∀ e l g, s.callersLease p k = some (e, l) → s.record l.record = some g →
        answers (.release p) s p f ((t.setLease e none).dropReference l.record) .ok (wordBytes g.number)))

/-- R75, R89, R90, R109 and R110: a due deadline that the Table Manager may take ends its build, proposal or lease. The
owner of a build and the holder of a lease are told while their session lasts. -/
def Obligations.ExpiriesEndTheirObjects : Prop :=
  ∀ s : State, s.takesExpiries = true →
    (∀ h b g declared dl, s.context h = some b → s.record b.record = some g → g.state = .building declared dl →
      dl ≤ s.time →
      ((s.session b.owner).state = .attached b.session →
        exec (.buildIdleExpiry h) s =
          .next ((s.discardBuild h).deliverEvent b.owner ⟨.buildExpired, b.slot, g.number, .zero, none⟩))
      ∧ ((s.session b.owner).state ≠ .attached b.session →
        exec (.buildIdleExpiry h) s = .next (s.discardBuild h)))
    ∧ (∀ e q, s.proposal e = some q → q.deadline ≤ s.time → exec (.proposalExpiry e) s = .next (s.resolve e .lapsed))
    ∧ (∀ e l g, s.lease e = some l → s.record l.record = some g → l.expiry ≤ s.time →
      ((s.session l.port).state = .attached l.session →
        exec (.leaseExpiry e) s =
          .next (((s.setLease e none).dropReference l.record).deliverEvent l.port
            ⟨.leaseExpired, l.slot, g.number, .zero, none⟩))
      ∧ ((s.session l.port).state ≠ .attached l.session →
        exec (.leaseExpiry e) s = .next ((s.setLease e none).dropReference l.record)))

/-! ## Lookups (chapter 2) -/

/-- R23: a grant takes the lowest IDLE lane for the first eligible port from the lane arbiter's pointer; the head
command is then in execution, the lane holds its working record, and the pointer moves past the port. -/
def Obligations.LaneGrantTakesFirstEligiblePort : Prop :=
  ∀ (s : State) (l : LaneIndex) (p : Port) (f : Frame) (rest : List Frame) (i : Fin 4),
    s.phase = .running → s.lane l = none → (∀ l', l' < l → s.lane l' ≠ none) →
    p = s.lanePtr + i → (∀ j : Fin 4, j < i → s.laneEligible (s.lanePtr + j) = false) →
    s.isEnabled p = true → (s.port p).resetting = false → (s.port p).inExec = none →
    (s.port p).cmdQueue = f :: rest →
    let granted := fun w : LaneWork =>
      exec .laneGrant s = .next { (s.setPort p { s.port p with cmdQueue := rest, inExec := some ⟨f, false⟩ }).setLane l
        (some w) with lanePtr := p + 1 }
    (∀ kb opt hi lo : Byte, f.kind = .lookup → f.payload = [kb, opt, hi, lo] →
      granted { port := p, frame := f, slot := kb, options := opt, count := 1, inputs := [wordOf hi lo],
                capture := none })
    ∧ (∀ (kb opt n : Byte) (inputs : List Word), f.kind = .lookupBatch →
      f.payload = [kb, opt, n] ++ inputs.flatMap wordBytes →
      granted { port := p, frame := f, slot := kb, options := opt, count := n.toNat, inputs := inputs, capture := none })

/-- R26, R27 and R28: the checks of a capture claim in their order, and its effect: the leased record when a lease
applies and the CURRENT one otherwise gains a reference, and is stale when it is not the CURRENT one. A refused lookup
is answered and leaves the lane IDLE. -/
def Obligations.CaptureClaimChecksAndEffect : Prop :=
  ∀ (s : State) (l : LaneIndex) (w : LaneWork), s.takesClaims = true → s.lane l = some w → w.capture = none →
    let refused := fun st : Status =>
      exec (.captureClaim l) s =
        .next ((s.deliverResponse w.port ⟨w.frame.kind, w.frame.tag, st, []⟩).setLane l none)
    let captured := fun (r : RecordIndex) (g : GenRecord) (stale : Bool) =>
      exec (.captureClaim l) s = .next ((s.setRecord r (some { g with refCount := g.refCount + 1 })).setLane l
        (some { w with capture := some { record := r, stale := stale, results := [] } }))
    let wrong := 63 < w.slot.toNat ∨ 2 < w.options.toNat ∨ w.count = 0 ∨ 16 < w.count ∨ w.count ≠ w.inputs.length
    (s.isAttached w.port = false → refused .notAttached)
    ∧ (s.isAttached w.port = true → wrong → refused .badArgument)
    ∧ ∀ k : SlotIndex, k.val = w.slot.toNat → s.isAttached w.port = true → ¬wrong →
      (∀ e x d, s.callersLease w.port k = some (e, x) → w.options ≠ 1 → (s.slot k).state.definition = some d →
        (d.readers.getLsbD w.port.val = false → refused .noAccess)
        ∧ (d.readers.getLsbD w.port.val = true → ∀ g, s.record x.record = some g →
          captured x.record g (decide ((s.slot k).state.current ≠ some x.record))))
      ∧ ((s.callersLease w.port k = none ∨ w.options = 1) →
        ((∀ d r, (s.slot k).state ≠ .live d r) → refused .notLive)
        ∧ ∀ d r, (s.slot k).state = .live d r →
          (d.readers.getLsbD w.port.val = false → refused .noAccess)
          ∧ (d.readers.getLsbD w.port.val = true → w.options = 2 → refused .noLease)
          ∧ (d.readers.getLsbD w.port.val = true → w.options ≠ 2 → ∀ g, s.record r = some g → captured r g false))

/-- R29, R36, R37 and R38: a release claim evaluates every input against the captured record, drops the reference,
then delivers the response, and leaves the lane IDLE. -/
def Obligations.ReleaseClaimCompletesLookup : Prop :=
  ∀ (s : State) (l : LaneIndex) (w : LaneWork) (c : Capture) (g : GenRecord) (ps : List Point),
    s.takesClaims = true → s.lane l = some w → w.capture = some c → c.results = [] →
    s.record c.record = some g → g.points s.store = some ps → 2 ≤ ps.length →
    let results := w.inputs.map (evaluateInput g.interpolation g.extrapolation c.stale ps)
    let completed := fun (st : Status) (payload : List Byte) =>
      exec (.releaseClaim l) s =
        .next (((s.dropReference c.record).deliverResponse w.port ⟨w.frame.kind, w.frame.tag, st, payload⟩).setLane l
          none)
    (w.frame.kind = .lookupBatch →
      completed .ok (wordBytes g.number ++ [BitVec.ofNat 8 results.length]
        ++ results.flatMap (fun x => wordBytes x.value ++ [x.flags.code])))
    ∧ (∀ x, w.frame.kind = .lookup → results = [x] →
      (x.flags.rejected = true → completed .outOfRange (wordBytes g.number ++ [x.flags.code]))
      ∧ (x.flags.rejected = false → completed .ok (wordBytes g.number ++ wordBytes x.value ++ [x.flags.code])))

/-- R23, R26, R28, R36, R37, R38 and R45: LOOKUP and LOOKUP_BATCH, which carry a lookup out whole from its grant to its
response (log 22). One that fails a dispatch check answers that check's status with an empty payload. One that captures a
record that keeps its state answers the record's number and the result of each input, as R36 and R37 give them. Either
way nothing else changes but its port's queues, ATTN and the lane arbiter's pointer. -/
def Obligations.LookupsLeaveTablesAlone : Prop :=
  ∀ (s : State) (p : Port) (f : Frame) (rest : List Frame) (l : LaneIndex) (kind : CommandKind),
    kind = .lookup ∨ kind = .lookupBatch →
    s.takesClaims = true → s.laneOf p kind = none → s.laneChoice = some p → s.idleLane = some l →
    (s.port p).cmdQueue = f :: rest → f.kind = kind →
    let w := LaneWork.ofFrame p f
    let responds := fun (st : Status) (payload : List Byte) =>
      exec (if kind = .lookup then .lookup p else .lookupBatch p) s =
        .next { s.setPort p { s.port p with
            cmdQueue := rest, respQueue := (s.port p).respQueue ++ [⟨f.kind, f.tag, st, payload⟩], attn := true } with
          lanePtr := p + 1 }
    (∀ st, s.captureChecks w = .error st → responds st [])
    ∧ ∀ (r : RecordIndex) (stale : Bool) (g : GenRecord) (ps : List Point), s.captureChecks w = .ok (r, stale) →
      s.record r = some g → g.state.isCurrent = true ∨ g.refCount ≠ 0 → g.points s.store = some ps → 2 ≤ ps.length →
      let results := w.inputs.map (evaluateInput g.interpolation g.extrapolation stale ps)
      (kind = .lookupBatch →
        responds .ok (wordBytes g.number ++ [BitVec.ofNat 8 results.length]
          ++ results.flatMap (fun x => wordBytes x.value ++ [x.flags.code])))
      ∧ (kind = .lookup → ∃ x, results = [x]
        ∧ (x.flags.rejected = true → responds .outOfRange (wordBytes g.number ++ [x.flags.code]))
        ∧ (x.flags.rejected = false → responds .ok (wordBytes g.number ++ wordBytes x.value ++ [x.flags.code])))

/-- R30, R31 and R32: on a table whose x values rise strictly, an input within its range has as its segment the largest
index whose x is not above it. STEP gives that point's y. LINEAR gives y plus Q, the integer nearest to N divided by D,
the one farther from zero at a half-way case, and at the last point its y; the value lies between the segment's two y
values. No flag is set but STALE. -/
def Obligations.InsideInputsInterpolate : Prop :=
  ∀ (ps : List Point) (e : Extrapolation) (stale : Bool) (x : Word) (i : Nat) (a : Point),
    ps.Pairwise (fun a b => a.x.toInt < b.x.toInt) → ps[i]? = some a → a.x.toInt ≤ x.toInt →
    (∀ b, ps[i + 1]? = some b → x.toInt < b.x.toInt) → (ps.length = i + 1 → x = a.x) →
    let flags : ResultFlags :=
      { below := false, above := false, saturated := false, rejected := false, stale := stale }
    evaluateInput .step e stale ps x = { value := a.y, flags := flags }
    ∧ (ps.length = i + 1 → evaluateInput .linear e stale ps x = { value := a.y, flags := flags })
    ∧ ∀ b, ps[i + 1]? = some b →
      let n := (x.toInt - a.x.toInt) * (b.y.toInt - a.y.toInt)
      let d := b.x.toInt - a.x.toInt
      ∃ (v : Word) (q : Int),
        evaluateInput .linear e stale ps x = { value := v, flags := flags }
        ∧ v.toInt = a.y.toInt + q
        ∧ 2 * |n - q * d| ≤ d ∧ (2 * |n - q * d| = d → |n| < |q| * d)
        ∧ min a.y.toInt b.y.toInt ≤ v.toInt ∧ v.toInt ≤ max a.y.toInt b.y.toInt

/-- R33, R34 and R35: an input outside the range of a table. CLAMP, and EXTEND with STEP, give the end point's y;
EXTEND with LINEAR continues the end segment, rounded as R32 states, and saturates at the 16-bit range; REJECT gives 0
and REJECTED. -/
def Obligations.OutsideInputsFollowExtrapolation : Prop :=
  ∀ (ps : List Point) (m : Interpolation) (stale : Bool) (x : Word) (first second last previous : Point),
    ps.Pairwise (fun a b => a.x.toInt < b.x.toInt) → 2 ≤ ps.length →
    ps[0]? = some first → ps[1]? = some second → ps[ps.length - 1]? = some last →
    ps[ps.length - 2]? = some previous → x.toInt < first.x.toInt ∨ last.x.toInt < x.toInt →
    ∃ below : Bool, (below = true ↔ x.toInt < first.x.toInt) ∧
      let flags : Bool → Bool → ResultFlags := fun saturated rejected =>
        { below := below, above := !below, saturated := saturated, rejected := rejected, stale := stale }
      let anchor := if below then first else last
      let low := if below then first else previous
      let high := if below then second else last
      let n := (x.toInt - anchor.x.toInt) * (high.y.toInt - low.y.toInt)
      let d := high.x.toInt - low.x.toInt
      evaluateInput m .clamp stale ps x = ⟨anchor.y, flags false false⟩
      ∧ evaluateInput .step .extend stale ps x = ⟨anchor.y, flags false false⟩
      ∧ evaluateInput m .reject stale ps x = ⟨0, flags false true⟩
      ∧ ∃ (v : Word) (q : Int),
        2 * |n - q * d| ≤ d ∧ (2 * |n - q * d| = d → |n| < |q| * d)
        ∧ evaluateInput .linear .extend stale ps x =
          ⟨v, flags (decide (anchor.y.toInt + q < -32768 ∨ 32767 < anchor.y.toInt + q)) false⟩
        ∧ (-32768 ≤ anchor.y.toInt + q → anchor.y.toInt + q ≤ 32767 → v.toInt = anchor.y.toInt + q)
        ∧ (anchor.y.toInt + q < -32768 → v.toInt = -32768) ∧ (32767 < anchor.y.toInt + q → v.toInt = 32767)

/-! ## Option fuses (chapter 11) -/

/-- R170 and R171: what a cold start-up loads: the value of a PROGRAMMED field, the default of any other. -/
def Obligations.ShadowLoadsProgrammedFieldsOrDefaults : Prop :=
  ∀ s : State, s.burn = none →
    let programmed := fun f : FuseField => (s.fuse f).start = true ∧ (s.fuse f).completion = true
    let v := s.loadShadow
    (programmed .portEnable → v.portEnable = (s.fuse .portEnable).cells.setWidth 4)
    ∧ (¬programmed .portEnable → v.portEnable = 0xF)
    ∧ (programmed .definer → v.definer = (s.fuse .definer).cells.setWidth 4)
    ∧ (¬programmed .definer → v.definer = 0xF)
    ∧ (programmed .approvalWindow → v.approvalWindow = (s.fuse .approvalWindow).cells.toNat)
    ∧ (¬programmed .approvalWindow → v.approvalWindow = 500)
    ∧ (programmed .leasePeriod → v.leasePeriod = (s.fuse .leasePeriod).cells.toNat)
    ∧ (¬programmed .leasePeriod → v.leasePeriod = 2000)
    ∧ (programmed .buildIdle → v.buildIdle = (s.fuse .buildIdle).cells.toNat)
    ∧ (¬programmed .buildIdle → v.buildIdle = 1000)
    ∧ (programmed .leaseLimit → v.leaseLimit = (s.fuse .leaseLimit).cells.toNat)
    ∧ (¬programmed .leaseLimit → v.leaseLimit = 8)
    ∧ (programmed .fixedSlots → v.fixedSlots = (s.fuse .fixedSlots).cells.toNat)
    ∧ (¬programmed .fixedSlots → v.fixedSlots = 0)
    ∧ (programmed .warmRetain → (v.warmRetain = true ↔ (s.fuse .warmRetain).cells = 1))
    ∧ (¬programmed .warmRetain → v.warmRetain = true)
    ∧ (programmed .provisionClosed → (v.provisionClosed = true ↔ (s.fuse .provisionClosed).cells = 1))
    ∧ (¬programmed .provisionClosed → v.provisionClosed = false)

/-- R175: READ_OPTIONS needs no session, changes nothing and answers for each field in the order of the codes its array
state, its array value when PROGRAMMED and its value in use, then the field being burned or 0. -/
def Obligations.ReadOptionsReportsArrayAndShadow : Prop :=
  ∀ (s t : State) (p : Port) (f : Frame), s.claimCommand p .readOptions = some (f, t) →
    ∃ report : List Byte, answers (.readOptions p) s p f t .ok report ∧ report.length = 46
      ∧ (∀ x : FuseField, ∃ state array used : List Byte,
          (report.drop (5 * x.index.val)).take 5 = state ++ array ++ used
          ∧ used = wordBytes (s.inUse.value x)
          ∧ ((∃ b, s.burn = some b ∧ b.field = x) → state = [1] ∧ array = [0, 0])
          ∧ ((∀ b, s.burn = some b → b.field ≠ x) →
            ((s.fuse x).start = false → state = [0] ∧ array = [0, 0])
            ∧ ((s.fuse x).start = true → (s.fuse x).completion = true → state = [2] ∧ array = wordBytes (s.fuse x).cells)
            ∧ ((s.fuse x).start = true → (s.fuse x).completion = false → state = [3] ∧ array = [0, 0])))
      ∧ report.drop 45 = [match s.burn with
          | some b => BitVec.ofNat 8 (b.field.index.val + 1)
          | none => 0]

/-- R172, R173 and R174: the checks of PROGRAM_OPTION from PROVISIONING_CLOSED on and those of CLOSE_PROVISIONING, in
their order, and the hand-over: the burn is recorded, the start marker is burned, and no response is delivered. -/
def Obligations.ProgramOptionAndCloseProvisioning : Prop :=
  ∀ (s t : State) (p : Port) (f : Frame) (x : FuseField) (v : Word) (c : Instr), s.isAttached p = true →
    ((c = .programOption p ∧ s.claimCommand p .programOption = some (f, t)
        ∧ f.payload = [BitVec.ofNat 8 (x.index.val + 1)] ++ wordBytes v ∧ x ≠ .provisionClosed ∧ x.inRange v = true)
      ∨ (c = .closeProvisioning p ∧ s.claimCommand p .closeProvisioning = some (f, t) ∧ x = .provisionClosed
        ∧ v = 1)) →
    (s.fuseState .provisionClosed = .programmed → answers c s p f t .provisioningClosed [])
    ∧ (s.fuseState .provisionClosed ≠ .programmed →
      (s.fuseState x = .programmed → answers c s p f t .fuseSet [])
      ∧ (s.fuseState x = .spoiled → answers c s p f t .fuseSpoiled [])
      ∧ (s.fuseState x = .blank ∨ s.fuseState x = .burning →
        (s.burn ≠ none → answers c s p f t .fuseBusy [])
        ∧ (s.burn = none →
          exec c s = .next { t.setFuse x { s.fuse x with start := true } with
            burn := some { field := x, value := v, port := p } })))

/-- R173 and R174: at the end of a burn the field is PROGRAMMED with its value, no burn is in progress, and the response
is delivered to the issuing port. -/
def Obligations.BurnCompletionProgramsField : Prop :=
  ∀ (s : State) (b : Burn) (f : Frame) (d : Bool),
    s.burn = some b → (s.port b.port).inExec = some ⟨f, d⟩ →
    let done : State := { s.setFuse b.field { start := true, completion := true, cells := b.value } with burn := none }
    (b.field ≠ .provisionClosed →
      exec .burnCompletion s = .next (done.deliverResponse b.port
        ⟨f.kind, f.tag, .ok, [BitVec.ofNat 8 (b.field.index.val + 1)] ++ wordBytes b.value⟩))
    ∧ (b.field = .provisionClosed →
      exec .burnCompletion s = .next (done.deliverResponse b.port ⟨f.kind, f.tag, .ok, []⟩))

/-! ## The link (chapter 9) -/

/-- R147, R148 and R149: a POST of a whole frame and one byte more answers the accept code of the first condition that
holds, in the order of Table 80, and queues the frame exactly when that code is ACCEPTED. A POST that ends before the
byte more is complete queues nothing. -/
def Obligations.PostIsJudgedInOrder : Prop :=
  ∀ (s : State) (p : Port) (kind tag len crc more : Byte) (payload : List Byte),
    s.isEnabled p = true → (s.port p).txn = none → payload.length = len.toNat →
    let x := s.port p
    let running := decide (s.phase = .running)
    let shown : Byte := if running then x.statusByte else 0x00
    let frame := [kind, tag, len] ++ payload
    let answer := fun (code : Byte) (queue : List Frame) =>
      exec (.post p (frame ++ [crc, more]) .closed) s = .next (s.setPort p { x with
        sent := [shown] ++ List.replicate (payload.length + 4) 0x00 ++ [code], txn := none, cmdQueue := queue })
    (running = false → answer 0x06 x.cmdQueue)
    ∧ (running = true →
      (x.resetting = true → answer 0x05 x.cmdQueue)
      ∧ (x.resetting = false →
        (crc8 frame ≠ crc → answer 0x02 x.cmdQueue)
        ∧ (crc8 frame = crc →
          ((∀ k : CommandKind, k.code ≠ kind) → answer 0x04 x.cmdQueue)
          ∧ ∀ k : CommandKind, k.code = kind →
            (k.allowsLength payload.length = false → answer 0x03 x.cmdQueue)
            ∧ (k.allowsLength payload.length = true → 8 ≤ x.window → answer 0x01 x.cmdQueue)
            ∧ (k.allowsLength payload.length = true → x.window < 8 →
              answer 0x00 (x.cmdQueue ++ [⟨k, tag, payload⟩])))))
    ∧ ∀ n, n ≤ payload.length + 4 → ∃ sent : List Byte,
      exec (.post p ((frame ++ [crc, more]).take n) .closed) s = .next (s.setPort p { x with sent := sent, txn := none })

/-- R153 and R161: a FETCH of `n` bytes sends the head response with its CRC-8, and 0x00 after it. Clocked to the end of
the CRC-8 it moves the response to the last-fetched place and re-evaluates ATTN; truncated before it changes nothing. With
no response waiting, and during a reset and start-up, when the status byte is 0x00, it sends the empty marker and changes
nothing. -/
def Obligations.FetchSendsHeadResponse : Prop :=
  ∀ (s : State) (p : Port) (n : Nat), s.isEnabled p = true → (s.port p).txn = none →
    let x := s.port p
    let shown : Byte := if s.phase = .running then x.statusByte else 0x00
    let sends := fun bytes : List Byte => [shown] ++ (bytes ++ List.replicate n 0x00).take n
    (s.phase ≠ .running ∨ x.respQueue = [] →
      exec (.fetch p n .closed) s = .next (s.setPort p { x with sent := sends [0x00, 0x00], txn := none }))
    ∧ (∀ r rest, s.phase = .running → x.respQueue = r :: rest →
      let body := [r.kind.code, r.tag, r.status.code, BitVec.ofNat 8 r.payload.length] ++ r.payload
      let bytes := body ++ [crc8 body]
      (n < bytes.length →
        exec (.fetch p n .closed) s = .next (s.setPort p { x with sent := sends bytes, txn := none }))
      ∧ (bytes.length ≤ n →
        exec (.fetch p n .closed) s = .next (s.setPort p { x with
          sent := sends bytes, txn := none, respQueue := rest, lastFetched := some r,
          attn := !rest.isEmpty || !x.events.isEmpty || x.lost })))

/-- R155, R161 and R187: a DRAIN of `n` bytes sends, as far as they go, the count, at most 4 records, the lost byte and the
CRC-8, and 0x00 after them. The records whose sixth byte is out leave the queue, a lost flag reported is cleared once the
lost byte is out, and ATTN is re-evaluated when one of these happens. During a reset and start-up, when the status byte is
0x00 and the reset has cleared the lost flag, it sends 0x00 throughout and changes nothing. -/
def Obligations.DrainSendsAndRemovesRecords : Prop :=
  ∀ (s : State) (p : Port) (n : Nat), s.isEnabled p = true → (s.port p).txn = none →
    let x := s.port p
    let k := min 4 x.events.length
    let body := [BitVec.ofNat 8 k] ++ (x.events.take k).flatMap EventRecord.bytes ++ [if x.lost then 0x01 else 0x00]
    let gone := min k ((n - 1) / 6)
    let reported := x.lost && decide (6 * k + 2 ≤ n)
    let left := x.events.drop gone
    let lost := x.lost && !reported
    (s.phase = .running →
      exec (.drain p n .closed) s = .next (s.setPort p { x with
        sent := [x.statusByte] ++ (body ++ [crc8 body] ++ List.replicate n 0x00).take n, txn := none, events := left,
        lost := lost,
        attn := if gone = 0 ∧ reported = false then x.attn else !x.respQueue.isEmpty || !left.isEmpty || lost }))
    ∧ (s.phase ≠ .running → x.lost = false →
      exec (.drain p n .closed) s =
        .next (s.setPort p { x with sent := [0x00] ++ List.replicate n 0x00, txn := none }))

/-- R144, R146, R154 and R161: REFETCH, STATUS and a transaction of an unknown kind change nothing at the port but what it
has shifted out. REFETCH sends the last-fetched response again, or the empty marker, as it does during a reset and
start-up, when the status byte is 0x00. A transaction of any row that ends before eight bits of its kind byte are in
changes nothing either. R145 and R181: while the window count is at most 8, the status byte holds the free count in bits 3
to 0, RESP in bit 4, EVT in bit 5, ATT in bit 6 and RST in bit 7. -/
def Obligations.QuietTransactionsChangeNothing : Prop :=
  (∀ x : PortState, x.cmdQueue.length + (if x.inExec = none then 0 else 1) + x.respQueue.length ≤ 8 →
    x.statusByte.toNat % 16 + (x.cmdQueue.length + (if x.inExec = none then 0 else 1) + x.respQueue.length) = 8
    ∧ (x.statusByte.getLsbD 4 = true ↔ x.respQueue ≠ [])
    ∧ (x.statusByte.getLsbD 5 = true ↔ x.events ≠ [] ∨ x.lost = true)
    ∧ (x.statusByte.getLsbD 6 = true ↔ x.attached = true)
    ∧ (x.statusByte.getLsbD 7 = true ↔ x.resetting = true))
  ∧ ∀ (s : State) (p : Port) (n : Nat), s.isEnabled p = true → (s.port p).txn = none →
    let x := s.port p
    let shown : Byte := if s.phase = .running then x.statusByte else 0x00
    let quiet := fun (c : Instr) (bytes : List Byte) =>
      exec c s = .next (s.setPort p { x with
        sent := [shown] ++ (bytes ++ List.replicate n 0x00).take n, txn := none })
    quiet (.status p n .closed) []
    ∧ (∀ kind : Byte, kind ≠ 1 → kind ≠ 2 → kind ≠ 3 → kind ≠ 4 → kind ≠ 5 →
        quiet (.unknownTransactionKind p kind n .closed) [])
    ∧ (s.phase ≠ .running ∨ x.lastFetched = none → quiet (.refetch p n .closed) [0x00, 0x00])
    ∧ (∀ r, s.phase = .running → x.lastFetched = some r →
        quiet (.refetch p n .closed)
          ([r.kind.code, r.tag, r.status.code, BitVec.ofNat 8 r.payload.length] ++ r.payload
            ++ [crc8 ([r.kind.code, r.tag, r.status.code, BitVec.ofNat 8 r.payload.length] ++ r.payload)]))
    ∧ ∀ c ∈ [Instr.post p [] .abandoned, .fetch p 0 .abandoned, .refetch p 0 .abandoned, .drain p 0 .abandoned,
          .status p 0 .abandoned, .unknownTransactionKind p 0x00 0 .abandoned],
        exec c s = .next (s.setPort p { x with sent := [], txn := none })

/-- R144 and 00 section 1: a transaction, whole or in part and in whatever state, completes and acts on nothing but its
own port, and leaves that port's command in execution, reset state, session indication and pin alone. -/
def Obligations.TransactionsActOnTheirOwnPort : Prop :=
  ∀ (c : Instr) (p : Port) (s : State), linkRow c = some p →
    ∃ x : PortState, exec c s = .next (s.setPort p x)
      ∧ x.inExec = (s.port p).inExec ∧ x.resetting = (s.port p).resetting
      ∧ x.teardownOutstanding = (s.port p).teardownOutstanding ∧ x.attached = (s.port p).attached
      ∧ x.prstnLow = (s.port p).prstnLow ∧ x.cuts = (s.port p).cuts

/-! ## Resets (chapters 9 and 11) -/

/-- R157 and R151: PRSTN asserted on an enabled port while the part runs discards a transaction in progress, where a
byte in progress that is not 0x00 becomes a free value (log 7), empties the port, marks its command in execution, makes it RESETTING and,
when the port shows ATTACHED, presents a teardown request. A head command that passes first is then the command in
execution. R159, R160 and R177: the release of PRSTN makes the port NORMAL unless a teardown is outstanding; on a
disabled port, and during a reset or a start-up, either edge changes nothing but the level of the line. -/
def Obligations.PortResetEmptiesPort : Prop :=
  ∀ (s : State) (p : Port),
    let x := s.port p
    (s.phase = .running → s.isEnabled p = true → x.prstnLow = false →
      let emptied := fun e : Option Execution =>
        { x with
          txn := x.txn.map (fun t => { t with
            phase := .rest
            out := t.out.map (fun b => if t.phase = .rest ∨ b = 0x00 then b else Config.cutByte p.val x.cuts) })
          cuts := if x.txn.any (fun t => decide (t.phase ≠ .rest) && t.out.any (fun b => b != 0x00)) then x.cuts + 1
            else x.cuts
          cmdQueue := [], inExec := e, respQueue := [], lastFetched := none, events := [], lost := false,
          resetting := true, teardownOutstanding := x.teardownOutstanding || x.attached, attn := false,
          prstnLow := true }
      let requests := if x.attached then s.requests ++ [p] else s.requests
      exec (.prstnAsserted p false) s =
        .next { s.setPort p (emptied (x.inExec.map (fun e => ⟨e.frame, true⟩))) with requests := requests }
      ∧ (s.nextCommand p = none → exec (.prstnAsserted p true) s = exec (.prstnAsserted p false) s)
      ∧ (∀ f, s.nextCommand p = some f →
        exec (.prstnAsserted p true) s =
          .next { s.setPort p (emptied (some ⟨f, true⟩)) with requests := requests, controlPtr := p + 1 }))
    ∧ (s.phase = .running → s.isEnabled p = true → x.prstnLow = true →
      exec (.prstnReleased p) s = .next (s.setPort p { x with
        prstnLow := false, resetting := x.resetting && x.teardownOutstanding }))
    ∧ (s.phase ≠ .running ∨ s.isEnabled p = false →
      (x.prstnLow = true → exec (.prstnReleased p) s = .next (s.setPort p { x with prstnLow := false }))
      ∧ (x.prstnLow = false → ∀ h,
        exec (.prstnAsserted p h) s = .next (s.setPort p { x with prstnLow := true })))

/-- R177, R44, R161 and R176: the assertion of RSTN and power-on discard the transactions in progress, where a byte in
progress that is not 0x00 becomes a free value (log 7), empty the ports and lanes, stop a burn, let READY fall and decide the kind of the
reset; the tables and the fuse array stay until start-up, as does the shadow at RSTN. The start-up begins, and the
time with it at 0 (R136), at the release of RSTN, and at power-on when RSTN is not low. The model's choices are that
the ports are emptied here already (log 13), that the value cells of a field whose burn is cut short keep their value
(log 11), that power-on may come in any state and with RSTN low waits for its release (log 12), and that the Point Store
then reads 0 (log 10). -/
def Obligations.DeviceResetAndItsKind : Prop :=
  ∀ s : State,
    let emptied := fun t : State => ∀ p : Port, t.port p = { s.port p with
      txn := (s.port p).txn.map (fun t => { t with
        phase := .rest
        out := t.out.map (fun b =>
          if t.phase = .rest ∨ b = 0x00 then b else Config.cutByte p.val (s.port p).cuts) })
      cuts := if (s.port p).txn.any (fun t => decide (t.phase ≠ .rest) && t.out.any (fun b => b != 0x00))
        then (s.port p).cuts + 1 else (s.port p).cuts
      cmdQueue := [], inExec := none, respQueue := [], lastFetched := none, events := [], lost := false, attn := false }
    (s.rstnLow = false → ∃ t kind,
      exec .rstnAsserted s = .next t ∧ emptied t
      ∧ t = { s with ports := t.ports, ready := false, lanes := Vector.replicate 2 none, burn := none, requests := [],
                     phase := .inReset kind, rstnLow := true }
      ∧ (s.phase = .running ∨ s.phase = .startUp .warm → (kind = .warm ↔ s.inUse.warmRetain = true))
      ∧ (s.phase = .startUp .cold → kind = .cold))
    ∧ (∀ kind, s.rstnLow = true → s.phase = .inReset kind →
      exec .rstnReleased s = .next { s with rstnLow := false, phase := .startUp kind, time := 0 })
    ∧ (∃ t, exec .powerOn s = .next t ∧ emptied t
      ∧ t = { s with ports := t.ports, ready := false, lanes := Vector.replicate 2 none, burn := none, requests := [],
                     phase := if s.rstnLow then .inReset .cold else .startUp .cold,
                     time := if s.rstnLow then s.time else 0, shadow := none, store := [] })

/-- R178, R161, R20, R59 and R128: a cold start-up loads the shadow, clears the tables, fills the free list in ascending
order, arms STORE_LOW, sets the ports as Table 82 gives, and lets READY rise. The time goes on. A port that is disabled from
here on carries no transaction. -/
def Obligations.ColdStartUpClearsThePart : Prop :=
  ∀ s : State, s.phase = .startUp .cold → ∃ t : State,
    exec .coldStartUp s = .next t
    ∧ t = { s with
        ports := t.ports, shadow := some s.loadShadow, slots := Vector.replicate 64 SlotRecord.vacant,
        records := Vector.replicate 128 none, freeList := List.finRange 512, contexts := Vector.replicate 4 none,
        proposals := Vector.replicate 8 none, leases := Vector.replicate 32 none,
        sessions := Vector.replicate 4 { state := .detached, last := 0, teardownPending := false },
        lanes := Vector.replicate 2 none, controlPtr := 0, lanePtr := 0, requests := [], storeLowArmed := true,
        ready := true, phase := .running }
    ∧ ∀ p : Port, ∃ x : PortState, t.port p = { x with
        cmdQueue := [], inExec := none, respQueue := [], lastFetched := none, events := [], lost := false,
        resetting := s.loadShadow.portEnable.getLsbD p.val && (s.port p).prstnLow, teardownOutstanding := false,
        attached := false, attn := false, prstnLow := (s.port p).prstnLow, cuts := (s.port p).cuts }
      ∧ (s.loadShadow.portEnable.getLsbD p.val = true → x.txn = (s.port p).txn ∧ x.sent = (s.port p).sent)
      ∧ (s.loadShadow.portEnable.getLsbD p.val = false → x.txn = none ∧ x.sent = [])

/-- R179, R21, R60 and R129: a warm start-up keeps the shadow, the fuses, the Point Store, the definitions, the CURRENT
records with no reference, the next numbers, the latches and the last session numbers, discards the rest, and rebuilds
the free list in ascending order from the blocks no kept record holds. R161, Table 82: each port is empty and not
ATTACHED, and RESETTING exactly when it is enabled with PRSTN low; a transaction begun during the start-up goes on. -/
def Obligations.WarmStartUpKeepsCurrentGenerations : Prop :=
  ∀ s : State, s.phase = .startUp .warm → ∃ t : State,
    exec .warmStartUp s = .next t
    ∧ t = { s with
        ports := t.ports, slots := t.slots, records := t.records, freeList := t.freeList, sessions := t.sessions,
        contexts := Vector.replicate 4 none, proposals := Vector.replicate 8 none, leases := Vector.replicate 32 none,
        lanes := Vector.replicate 2 none, controlPtr := 0, lanePtr := 0, requests := [],
        storeLowArmed := decide (32 ≤ t.freeList.length), ready := true, phase := .running }
    ∧ (∀ r, t.record r = ((s.record r).filter (fun g => g.state.isCurrent)).map (fun g => { g with refCount := 0 }))
    ∧ (∀ b, b ∈ t.freeList ↔ ∀ r g, t.record r = some g → b ∉ g.blocks)
    ∧ t.freeList.Pairwise (fun a b => a < b)
    ∧ (∀ k, ((s.slot k).state = .vacant ∨ (∃ d, (s.slot k).state = .retiring d) → t.slot k = SlotRecord.vacant)
        ∧ ((∃ d, (s.slot k).state = .defined d) ∨ (∃ d r, (s.slot k).state = .live d r) →
          t.slot k = { s.slot k with build := none, proposal := none }))
    ∧ (∀ p, t.session p = { s.session p with state := .detached, teardownPending := false })
    ∧ ∀ p : Port, t.port p = { s.port p with
        cmdQueue := [], inExec := none, respQueue := [], lastFetched := none, events := [], lost := false,
        resetting := s.isEnabled p && (s.port p).prstnLow, teardownOutstanding := false, attached := false, attn := false }

/-- The state the model takes as the state after reset is what power-on and a cold start-up make of any state whose
fuses are BLANK, whose pins are at rest and in which no command waits, but for the record of bytes shifted out and
the count of the free values used (log 7, log 8). The empty Point Store is that of log 10. That the fuses are BLANK
and the pins at rest, and what the Point Store holds, is the model's choice (log 9, log 10). -/
def Obligations.ResetStateIsAColdStart : Prop :=
  ∀ s : State, s.fuses = Vector.replicate 9 FuseCell.blank → s.rstnLow = false → s.pending = [] →
    (∀ p, (s.port p).prstnLow = false ∧ (s.port p).txn = none ∧ (s.port p).sent = [] ∧ (s.port p).cuts = 0) →
    ∃ t, exec .powerOn s = .next t ∧ exec .coldStartUp t = .next State.reset

/-! ## The laws of the device -/

/-- R4, the first law, holds after every step if it held before. -/
def Obligations.EveryBlockStaysInOnePlace : Prop :=
  ∀ s t : State, s.blockLaw → step s = .next t → t.blockLaw

/-- R150 (the seventh law), R116, R156 and R163 hold at every port after every step if they held before. -/
def Obligations.PortLawsKept : Prop :=
  ∀ s t : State, s.portLaw → step s = .next t → t.portLaw

/-- R116 and R122: every lease, build context and recorded approval carries its port's current session number, or the
ending one, after every step if it was so before, and so does a proposal for a proposer whose session has not ended. R102,
the sixth law, likewise. R99: no step makes the port whose session has ended the proposer of an open proposal again (the
mark of an ended proposer is the model's, log 24). -/
def Obligations.SessionAndLeaseLawsKept : Prop :=
  ∀ s t : State, step s = .next t →
    (s.sessionLaw → t.sessionLaw) ∧ (s.leaseLaw → t.leaseLaw)
    ∧ ∀ e q q', s.proposal e = some q → t.proposal e = some q' → q.proposerEnded = true → q'.proposerEnded = true

/-- R48, the third law, holds after every step if it held before, and R58, the twelfth: a slot whose fixed latch is set
keeps its latch, its definition and its CURRENT record in every step but a cold start-up. -/
def Obligations.SlotLawAndFixedLatchKept : Prop :=
  ∀ s t : State, s.slotLaw → step s = .next t →
    t.slotLaw
    ∧ ∀ k, (s.slot k).fixedLatch = true → (∀ rest, s.pending ≠ .coldStartUp :: rest) →
      (t.slot k).fixedLatch = true ∧ (t.slot k).state = (s.slot k).state

/-- R9, R10, R11, R47 and R48: where the laws of the generation pool hold, a step completes, so that the model's one
fault is never raised (log 14), and they hold after it. R1: where the first law (R4) and the law of the store hold as
well, a step keeps the strict rise of the x values of the points stored in every record in use. -/
def Obligations.GenerationLawsKept : Prop :=
  ∀ s : State, s.generationLaw → s.stepsSafely ∧ ∀ t, step s = .next t →
    t.generationLaw ∧ (s.blockLaw → s.storeLaw → s.risingLaw → t.risingLaw)

/-- R16 and R3: a generation that has left BUILDING keeps its number, its modes, its checksum, its blocks and its points
in every step that leaves its record in use, but for the loss of the store at power-on. -/
def Obligations.GenerationsNeverChange : Prop :=
  ∀ s t : State, s.generationLaw → s.blockLaw → step s = .next t → t.shadow ≠ none →
    ∀ r g g', s.record r = some g → (∀ n, ¬g.isBuilding n) → t.record r = some g' →
      g.sameTable g' ∧ g'.points t.store = g.points s.store

/-- R91, the eleventh law: a record that becomes CURRENT in a step was built or proposed on its slot and does so in the
CLOSE_BUILD of a port when no other port has to approve, or in the APPROVE that leaves every port of the captured set with
a recorded approval, each of them under its port's session. -/
def Obligations.AdoptionNeedsEveryApproval : Prop :=
  ∀ (s t : State) (r : RecordIndex) (g : GenRecord), s.sessionLaw → s.generationLaw → step s = .next t →
    t.record r = some g → g.state.isCurrent = true → (∀ g', s.record r = some g' → g'.state.isCurrent = false) →
      (∃ p rest b h, s.pending = .closeBuild p :: rest ∧ s.context h = some b ∧ b.record = r ∧ b.slot = g.slot
        ∧ b.owner = p ∧ ∀ q : Port, (s.maskOf b.slot (fun d => d.approvers)).getLsbD q.val = true → q = p)
      ∨ (∃ p rest e q, s.pending = .approve p :: rest ∧ s.proposal e = some q ∧ q.change = .commit r ∧ q.slot = g.slot
        ∧ q.approvers.getLsbD p.val = true ∧ s.isAttached p = true
        ∧ ∀ x : Port, q.approvers.getLsbD x.val = true → x ≠ p →
          ∃ n, q.approvals[x] = some n ∧ s.isSessionOf x n)

/-- All these laws hold in the state after reset. -/
def Obligations.LawsHoldAtReset : Prop :=
  State.reset.blockLaw ∧ State.reset.storeLaw ∧ State.reset.portLaw ∧ State.reset.sessionLaw ∧ State.reset.leaseLaw
  ∧ State.reset.slotLaw ∧ State.reset.generationLaw ∧ State.reset.risingLaw
end

