-- ==== Sys2Proof/Laws/State.lean ====
section
/-! SUPPORT. One lemma per field per update of `State` and `PortState`, and the read of each table after a write of it. -/

namespace Sys2Proof.Machine

variable (s : State)

/-! ### setPort -/

@[simp] theorem State.setPort_store (p : Port) (x : PortState) : (s.setPort p x).store = s.store := rfl
@[simp] theorem State.setPort_freeList (p : Port) (x : PortState) : (s.setPort p x).freeList = s.freeList := rfl
@[simp] theorem State.setPort_records (p : Port) (x : PortState) : (s.setPort p x).records = s.records := rfl
@[simp] theorem State.setPort_storeLowArmed (p : Port) (x : PortState) : (s.setPort p x).storeLowArmed = s.storeLowArmed := rfl
@[simp] theorem State.setPort_slots (p : Port) (x : PortState) : (s.setPort p x).slots = s.slots := rfl
@[simp] theorem State.setPort_contexts (p : Port) (x : PortState) : (s.setPort p x).contexts = s.contexts := rfl
@[simp] theorem State.setPort_proposals (p : Port) (x : PortState) : (s.setPort p x).proposals = s.proposals := rfl
@[simp] theorem State.setPort_leases (p : Port) (x : PortState) : (s.setPort p x).leases = s.leases := rfl
@[simp] theorem State.setPort_sessions (p : Port) (x : PortState) : (s.setPort p x).sessions = s.sessions := rfl
@[simp] theorem State.setPort_controlPtr (p : Port) (x : PortState) : (s.setPort p x).controlPtr = s.controlPtr := rfl
@[simp] theorem State.setPort_requests (p : Port) (x : PortState) : (s.setPort p x).requests = s.requests := rfl
@[simp] theorem State.setPort_lanes (p : Port) (x : PortState) : (s.setPort p x).lanes = s.lanes := rfl
@[simp] theorem State.setPort_lanePtr (p : Port) (x : PortState) : (s.setPort p x).lanePtr = s.lanePtr := rfl
@[simp] theorem State.setPort_fuses (p : Port) (x : PortState) : (s.setPort p x).fuses = s.fuses := rfl
@[simp] theorem State.setPort_burn (p : Port) (x : PortState) : (s.setPort p x).burn = s.burn := rfl
@[simp] theorem State.setPort_shadow (p : Port) (x : PortState) : (s.setPort p x).shadow = s.shadow := rfl
@[simp] theorem State.setPort_ready (p : Port) (x : PortState) : (s.setPort p x).ready = s.ready := rfl
@[simp] theorem State.setPort_rstnLow (p : Port) (x : PortState) : (s.setPort p x).rstnLow = s.rstnLow := rfl
@[simp] theorem State.setPort_phase (p : Port) (x : PortState) : (s.setPort p x).phase = s.phase := rfl
@[simp] theorem State.setPort_time (p : Port) (x : PortState) : (s.setPort p x).time = s.time := rfl
@[simp] theorem State.setPort_pending (p : Port) (x : PortState) : (s.setPort p x).pending = s.pending := rfl

@[simp] theorem State.slot_setPort (p : Port) (x : PortState) (k2 : SlotIndex) : (s.setPort p x).slot k2 = s.slot k2 := rfl
@[simp] theorem State.record_setPort (p : Port) (x : PortState) (r2 : RecordIndex) : (s.setPort p x).record r2 = s.record r2 := rfl
@[simp] theorem State.context_setPort (p : Port) (x : PortState) (b2 : Handle) : (s.setPort p x).context b2 = s.context b2 := rfl
@[simp] theorem State.proposal_setPort (p : Port) (x : PortState) (e2 : ProposalIndex) : (s.setPort p x).proposal e2 = s.proposal e2 := rfl
@[simp] theorem State.lease_setPort (p : Port) (x : PortState) (e2 : LeaseIndex) : (s.setPort p x).lease e2 = s.lease e2 := rfl
@[simp] theorem State.lane_setPort (p : Port) (x : PortState) (l2 : LaneIndex) : (s.setPort p x).lane l2 = s.lane l2 := rfl
@[simp] theorem State.fuse_setPort (p : Port) (x : PortState) (f2 : FuseField) : (s.setPort p x).fuse f2 = s.fuse f2 := rfl
@[simp] theorem State.session_setPort (p : Port) (x : PortState) (p2 : Port) : (s.setPort p x).session p2 = s.session p2 := rfl
@[simp] theorem State.port_setPort_self (p : Port) (x : PortState) : (s.setPort p x).port p = x := by
  simp [State.port, State.setPort]
theorem State.port_setPort_ne {p j : Port} (x : PortState) (h : j ≠ p) : (s.setPort p x).port j = s.port j := by
  have h' : p.val ≠ j.val := fun c => h (Fin.ext c.symm)
  simp [State.port, State.setPort, h']
theorem State.port_setPort_ite (p j : Port) (x : PortState) :
    (s.setPort p x).port j = if j = p then x else s.port j := by
  by_cases h : j = p
  · subst h; simp
  · simp [h, State.port_setPort_ne s x h]
/-- Writing back what is there changes nothing. -/
@[simp] theorem State.setPort_port (p : Port) : s.setPort p (s.port p) = s := by
  have : s.ports.set p s.ports[p] = s.ports := by simp
  simp [State.setPort, State.port]
/-- The later write at one index wins. -/
@[simp] theorem State.setPort_setPort (p : Port) (x y) : (s.setPort p x).setPort p y = s.setPort p y := by
  simp [State.setPort]

/-! ### setSlot -/

@[simp] theorem State.setSlot_store (k : SlotIndex) (x : SlotRecord) : (s.setSlot k x).store = s.store := rfl
@[simp] theorem State.setSlot_freeList (k : SlotIndex) (x : SlotRecord) : (s.setSlot k x).freeList = s.freeList := rfl
@[simp] theorem State.setSlot_records (k : SlotIndex) (x : SlotRecord) : (s.setSlot k x).records = s.records := rfl
@[simp] theorem State.setSlot_storeLowArmed (k : SlotIndex) (x : SlotRecord) : (s.setSlot k x).storeLowArmed = s.storeLowArmed := rfl
@[simp] theorem State.setSlot_contexts (k : SlotIndex) (x : SlotRecord) : (s.setSlot k x).contexts = s.contexts := rfl
@[simp] theorem State.setSlot_proposals (k : SlotIndex) (x : SlotRecord) : (s.setSlot k x).proposals = s.proposals := rfl
@[simp] theorem State.setSlot_leases (k : SlotIndex) (x : SlotRecord) : (s.setSlot k x).leases = s.leases := rfl
@[simp] theorem State.setSlot_sessions (k : SlotIndex) (x : SlotRecord) : (s.setSlot k x).sessions = s.sessions := rfl
@[simp] theorem State.setSlot_controlPtr (k : SlotIndex) (x : SlotRecord) : (s.setSlot k x).controlPtr = s.controlPtr := rfl
@[simp] theorem State.setSlot_requests (k : SlotIndex) (x : SlotRecord) : (s.setSlot k x).requests = s.requests := rfl
@[simp] theorem State.setSlot_lanes (k : SlotIndex) (x : SlotRecord) : (s.setSlot k x).lanes = s.lanes := rfl
@[simp] theorem State.setSlot_lanePtr (k : SlotIndex) (x : SlotRecord) : (s.setSlot k x).lanePtr = s.lanePtr := rfl
@[simp] theorem State.setSlot_ports (k : SlotIndex) (x : SlotRecord) : (s.setSlot k x).ports = s.ports := rfl
@[simp] theorem State.setSlot_fuses (k : SlotIndex) (x : SlotRecord) : (s.setSlot k x).fuses = s.fuses := rfl
@[simp] theorem State.setSlot_burn (k : SlotIndex) (x : SlotRecord) : (s.setSlot k x).burn = s.burn := rfl
@[simp] theorem State.setSlot_shadow (k : SlotIndex) (x : SlotRecord) : (s.setSlot k x).shadow = s.shadow := rfl
@[simp] theorem State.setSlot_ready (k : SlotIndex) (x : SlotRecord) : (s.setSlot k x).ready = s.ready := rfl
@[simp] theorem State.setSlot_rstnLow (k : SlotIndex) (x : SlotRecord) : (s.setSlot k x).rstnLow = s.rstnLow := rfl
@[simp] theorem State.setSlot_phase (k : SlotIndex) (x : SlotRecord) : (s.setSlot k x).phase = s.phase := rfl
@[simp] theorem State.setSlot_time (k : SlotIndex) (x : SlotRecord) : (s.setSlot k x).time = s.time := rfl
@[simp] theorem State.setSlot_pending (k : SlotIndex) (x : SlotRecord) : (s.setSlot k x).pending = s.pending := rfl

@[simp] theorem State.port_setSlot (k : SlotIndex) (x : SlotRecord) (p2 : Port) : (s.setSlot k x).port p2 = s.port p2 := rfl
@[simp] theorem State.record_setSlot (k : SlotIndex) (x : SlotRecord) (r2 : RecordIndex) : (s.setSlot k x).record r2 = s.record r2 := rfl
@[simp] theorem State.context_setSlot (k : SlotIndex) (x : SlotRecord) (b2 : Handle) : (s.setSlot k x).context b2 = s.context b2 := rfl
@[simp] theorem State.proposal_setSlot (k : SlotIndex) (x : SlotRecord) (e2 : ProposalIndex) : (s.setSlot k x).proposal e2 = s.proposal e2 := rfl
@[simp] theorem State.lease_setSlot (k : SlotIndex) (x : SlotRecord) (e2 : LeaseIndex) : (s.setSlot k x).lease e2 = s.lease e2 := rfl
@[simp] theorem State.lane_setSlot (k : SlotIndex) (x : SlotRecord) (l2 : LaneIndex) : (s.setSlot k x).lane l2 = s.lane l2 := rfl
@[simp] theorem State.fuse_setSlot (k : SlotIndex) (x : SlotRecord) (f2 : FuseField) : (s.setSlot k x).fuse f2 = s.fuse f2 := rfl
@[simp] theorem State.session_setSlot (k : SlotIndex) (x : SlotRecord) (p2 : Port) : (s.setSlot k x).session p2 = s.session p2 := rfl
@[simp] theorem State.slot_setSlot_self (k : SlotIndex) (x : SlotRecord) : (s.setSlot k x).slot k = x := by
  simp [State.slot, State.setSlot]
theorem State.slot_setSlot_ne {k j : SlotIndex} (x : SlotRecord) (h : j ≠ k) : (s.setSlot k x).slot j = s.slot j := by
  have h' : k.val ≠ j.val := fun c => h (Fin.ext c.symm)
  simp [State.slot, State.setSlot, h']
theorem State.slot_setSlot_ite (k j : SlotIndex) (x : SlotRecord) :
    (s.setSlot k x).slot j = if j = k then x else s.slot j := by
  by_cases h : j = k
  · subst h; simp
  · simp [h, State.slot_setSlot_ne s x h]
/-- Writing back what is there changes nothing. -/
@[simp] theorem State.setSlot_slot (k : SlotIndex) : s.setSlot k (s.slot k) = s := by
  have : s.slots.set k s.slots[k] = s.slots := by simp
  simp [State.setSlot, State.slot]
/-- The later write at one index wins. -/
@[simp] theorem State.setSlot_setSlot (k : SlotIndex) (x y) : (s.setSlot k x).setSlot k y = s.setSlot k y := by
  simp [State.setSlot]

/-! ### setRecord -/

@[simp] theorem State.setRecord_store (r : RecordIndex) (x : Option GenRecord) : (s.setRecord r x).store = s.store := rfl
@[simp] theorem State.setRecord_freeList (r : RecordIndex) (x : Option GenRecord) : (s.setRecord r x).freeList = s.freeList := rfl
@[simp] theorem State.setRecord_storeLowArmed (r : RecordIndex) (x : Option GenRecord) : (s.setRecord r x).storeLowArmed = s.storeLowArmed := rfl
@[simp] theorem State.setRecord_slots (r : RecordIndex) (x : Option GenRecord) : (s.setRecord r x).slots = s.slots := rfl
@[simp] theorem State.setRecord_contexts (r : RecordIndex) (x : Option GenRecord) : (s.setRecord r x).contexts = s.contexts := rfl
@[simp] theorem State.setRecord_proposals (r : RecordIndex) (x : Option GenRecord) : (s.setRecord r x).proposals = s.proposals := rfl
@[simp] theorem State.setRecord_leases (r : RecordIndex) (x : Option GenRecord) : (s.setRecord r x).leases = s.leases := rfl
@[simp] theorem State.setRecord_sessions (r : RecordIndex) (x : Option GenRecord) : (s.setRecord r x).sessions = s.sessions := rfl
@[simp] theorem State.setRecord_controlPtr (r : RecordIndex) (x : Option GenRecord) : (s.setRecord r x).controlPtr = s.controlPtr := rfl
@[simp] theorem State.setRecord_requests (r : RecordIndex) (x : Option GenRecord) : (s.setRecord r x).requests = s.requests := rfl
@[simp] theorem State.setRecord_lanes (r : RecordIndex) (x : Option GenRecord) : (s.setRecord r x).lanes = s.lanes := rfl
@[simp] theorem State.setRecord_lanePtr (r : RecordIndex) (x : Option GenRecord) : (s.setRecord r x).lanePtr = s.lanePtr := rfl
@[simp] theorem State.setRecord_ports (r : RecordIndex) (x : Option GenRecord) : (s.setRecord r x).ports = s.ports := rfl
@[simp] theorem State.setRecord_fuses (r : RecordIndex) (x : Option GenRecord) : (s.setRecord r x).fuses = s.fuses := rfl
@[simp] theorem State.setRecord_burn (r : RecordIndex) (x : Option GenRecord) : (s.setRecord r x).burn = s.burn := rfl
@[simp] theorem State.setRecord_shadow (r : RecordIndex) (x : Option GenRecord) : (s.setRecord r x).shadow = s.shadow := rfl
@[simp] theorem State.setRecord_ready (r : RecordIndex) (x : Option GenRecord) : (s.setRecord r x).ready = s.ready := rfl
@[simp] theorem State.setRecord_rstnLow (r : RecordIndex) (x : Option GenRecord) : (s.setRecord r x).rstnLow = s.rstnLow := rfl
@[simp] theorem State.setRecord_phase (r : RecordIndex) (x : Option GenRecord) : (s.setRecord r x).phase = s.phase := rfl
@[simp] theorem State.setRecord_time (r : RecordIndex) (x : Option GenRecord) : (s.setRecord r x).time = s.time := rfl
@[simp] theorem State.setRecord_pending (r : RecordIndex) (x : Option GenRecord) : (s.setRecord r x).pending = s.pending := rfl

@[simp] theorem State.port_setRecord (r : RecordIndex) (x : Option GenRecord) (p2 : Port) : (s.setRecord r x).port p2 = s.port p2 := rfl
@[simp] theorem State.slot_setRecord (r : RecordIndex) (x : Option GenRecord) (k2 : SlotIndex) : (s.setRecord r x).slot k2 = s.slot k2 := rfl
@[simp] theorem State.context_setRecord (r : RecordIndex) (x : Option GenRecord) (b2 : Handle) : (s.setRecord r x).context b2 = s.context b2 := rfl
@[simp] theorem State.proposal_setRecord (r : RecordIndex) (x : Option GenRecord) (e2 : ProposalIndex) : (s.setRecord r x).proposal e2 = s.proposal e2 := rfl
@[simp] theorem State.lease_setRecord (r : RecordIndex) (x : Option GenRecord) (e2 : LeaseIndex) : (s.setRecord r x).lease e2 = s.lease e2 := rfl
@[simp] theorem State.lane_setRecord (r : RecordIndex) (x : Option GenRecord) (l2 : LaneIndex) : (s.setRecord r x).lane l2 = s.lane l2 := rfl
@[simp] theorem State.fuse_setRecord (r : RecordIndex) (x : Option GenRecord) (f2 : FuseField) : (s.setRecord r x).fuse f2 = s.fuse f2 := rfl
@[simp] theorem State.session_setRecord (r : RecordIndex) (x : Option GenRecord) (p2 : Port) : (s.setRecord r x).session p2 = s.session p2 := rfl
@[simp] theorem State.record_setRecord_self (r : RecordIndex) (x : Option GenRecord) : (s.setRecord r x).record r = x := by
  simp [State.record, State.setRecord]
theorem State.record_setRecord_ne {r j : RecordIndex} (x : Option GenRecord) (h : j ≠ r) : (s.setRecord r x).record j = s.record j := by
  have h' : r.val ≠ j.val := fun c => h (Fin.ext c.symm)
  simp [State.record, State.setRecord, h']
theorem State.record_setRecord_ite (r j : RecordIndex) (x : Option GenRecord) :
    (s.setRecord r x).record j = if j = r then x else s.record j := by
  by_cases h : j = r
  · subst h; simp
  · simp [h, State.record_setRecord_ne s x h]
/-- Writing back what is there changes nothing. -/
@[simp] theorem State.setRecord_record (r : RecordIndex) : s.setRecord r (s.record r) = s := by
  have : s.records.set r s.records[r] = s.records := by simp
  simp [State.setRecord, State.record]
/-- The later write at one index wins. -/
@[simp] theorem State.setRecord_setRecord (r : RecordIndex) (x y) : (s.setRecord r x).setRecord r y = s.setRecord r y := by
  simp [State.setRecord]

/-! ### setContext -/

@[simp] theorem State.setContext_store (b : Handle) (x : Option BuildContext) : (s.setContext b x).store = s.store := rfl
@[simp] theorem State.setContext_freeList (b : Handle) (x : Option BuildContext) : (s.setContext b x).freeList = s.freeList := rfl
@[simp] theorem State.setContext_records (b : Handle) (x : Option BuildContext) : (s.setContext b x).records = s.records := rfl
@[simp] theorem State.setContext_storeLowArmed (b : Handle) (x : Option BuildContext) : (s.setContext b x).storeLowArmed = s.storeLowArmed := rfl
@[simp] theorem State.setContext_slots (b : Handle) (x : Option BuildContext) : (s.setContext b x).slots = s.slots := rfl
@[simp] theorem State.setContext_proposals (b : Handle) (x : Option BuildContext) : (s.setContext b x).proposals = s.proposals := rfl
@[simp] theorem State.setContext_leases (b : Handle) (x : Option BuildContext) : (s.setContext b x).leases = s.leases := rfl
@[simp] theorem State.setContext_sessions (b : Handle) (x : Option BuildContext) : (s.setContext b x).sessions = s.sessions := rfl
@[simp] theorem State.setContext_controlPtr (b : Handle) (x : Option BuildContext) : (s.setContext b x).controlPtr = s.controlPtr := rfl
@[simp] theorem State.setContext_requests (b : Handle) (x : Option BuildContext) : (s.setContext b x).requests = s.requests := rfl
@[simp] theorem State.setContext_lanes (b : Handle) (x : Option BuildContext) : (s.setContext b x).lanes = s.lanes := rfl
@[simp] theorem State.setContext_lanePtr (b : Handle) (x : Option BuildContext) : (s.setContext b x).lanePtr = s.lanePtr := rfl
@[simp] theorem State.setContext_ports (b : Handle) (x : Option BuildContext) : (s.setContext b x).ports = s.ports := rfl
@[simp] theorem State.setContext_fuses (b : Handle) (x : Option BuildContext) : (s.setContext b x).fuses = s.fuses := rfl
@[simp] theorem State.setContext_burn (b : Handle) (x : Option BuildContext) : (s.setContext b x).burn = s.burn := rfl
@[simp] theorem State.setContext_shadow (b : Handle) (x : Option BuildContext) : (s.setContext b x).shadow = s.shadow := rfl
@[simp] theorem State.setContext_ready (b : Handle) (x : Option BuildContext) : (s.setContext b x).ready = s.ready := rfl
@[simp] theorem State.setContext_rstnLow (b : Handle) (x : Option BuildContext) : (s.setContext b x).rstnLow = s.rstnLow := rfl
@[simp] theorem State.setContext_phase (b : Handle) (x : Option BuildContext) : (s.setContext b x).phase = s.phase := rfl
@[simp] theorem State.setContext_time (b : Handle) (x : Option BuildContext) : (s.setContext b x).time = s.time := rfl
@[simp] theorem State.setContext_pending (b : Handle) (x : Option BuildContext) : (s.setContext b x).pending = s.pending := rfl

@[simp] theorem State.port_setContext (b : Handle) (x : Option BuildContext) (p2 : Port) : (s.setContext b x).port p2 = s.port p2 := rfl
@[simp] theorem State.slot_setContext (b : Handle) (x : Option BuildContext) (k2 : SlotIndex) : (s.setContext b x).slot k2 = s.slot k2 := rfl
@[simp] theorem State.record_setContext (b : Handle) (x : Option BuildContext) (r2 : RecordIndex) : (s.setContext b x).record r2 = s.record r2 := rfl
@[simp] theorem State.proposal_setContext (b : Handle) (x : Option BuildContext) (e2 : ProposalIndex) : (s.setContext b x).proposal e2 = s.proposal e2 := rfl
@[simp] theorem State.lease_setContext (b : Handle) (x : Option BuildContext) (e2 : LeaseIndex) : (s.setContext b x).lease e2 = s.lease e2 := rfl
@[simp] theorem State.lane_setContext (b : Handle) (x : Option BuildContext) (l2 : LaneIndex) : (s.setContext b x).lane l2 = s.lane l2 := rfl
@[simp] theorem State.fuse_setContext (b : Handle) (x : Option BuildContext) (f2 : FuseField) : (s.setContext b x).fuse f2 = s.fuse f2 := rfl
@[simp] theorem State.session_setContext (b : Handle) (x : Option BuildContext) (p2 : Port) : (s.setContext b x).session p2 = s.session p2 := rfl
@[simp] theorem State.context_setContext_self (b : Handle) (x : Option BuildContext) : (s.setContext b x).context b = x := by
  simp [State.context, State.setContext]
theorem State.context_setContext_ne {b j : Handle} (x : Option BuildContext) (h : j ≠ b) : (s.setContext b x).context j = s.context j := by
  have h' : b.val ≠ j.val := fun c => h (Fin.ext c.symm)
  simp [State.context, State.setContext, h']
theorem State.context_setContext_ite (b j : Handle) (x : Option BuildContext) :
    (s.setContext b x).context j = if j = b then x else s.context j := by
  by_cases h : j = b
  · subst h; simp
  · simp [h, State.context_setContext_ne s x h]
/-- Writing back what is there changes nothing. -/
@[simp] theorem State.setContext_context (b : Handle) : s.setContext b (s.context b) = s := by
  have : s.contexts.set b s.contexts[b] = s.contexts := by simp
  simp [State.setContext, State.context]
/-- The later write at one index wins. -/
@[simp] theorem State.setContext_setContext (b : Handle) (x y) : (s.setContext b x).setContext b y = s.setContext b y := by
  simp [State.setContext]

/-! ### setProposal -/

@[simp] theorem State.setProposal_store (e : ProposalIndex) (x : Option Proposal) : (s.setProposal e x).store = s.store := rfl
@[simp] theorem State.setProposal_freeList (e : ProposalIndex) (x : Option Proposal) : (s.setProposal e x).freeList = s.freeList := rfl
@[simp] theorem State.setProposal_records (e : ProposalIndex) (x : Option Proposal) : (s.setProposal e x).records = s.records := rfl
@[simp] theorem State.setProposal_storeLowArmed (e : ProposalIndex) (x : Option Proposal) : (s.setProposal e x).storeLowArmed = s.storeLowArmed := rfl
@[simp] theorem State.setProposal_slots (e : ProposalIndex) (x : Option Proposal) : (s.setProposal e x).slots = s.slots := rfl
@[simp] theorem State.setProposal_contexts (e : ProposalIndex) (x : Option Proposal) : (s.setProposal e x).contexts = s.contexts := rfl
@[simp] theorem State.setProposal_leases (e : ProposalIndex) (x : Option Proposal) : (s.setProposal e x).leases = s.leases := rfl
@[simp] theorem State.setProposal_sessions (e : ProposalIndex) (x : Option Proposal) : (s.setProposal e x).sessions = s.sessions := rfl
@[simp] theorem State.setProposal_controlPtr (e : ProposalIndex) (x : Option Proposal) : (s.setProposal e x).controlPtr = s.controlPtr := rfl
@[simp] theorem State.setProposal_requests (e : ProposalIndex) (x : Option Proposal) : (s.setProposal e x).requests = s.requests := rfl
@[simp] theorem State.setProposal_lanes (e : ProposalIndex) (x : Option Proposal) : (s.setProposal e x).lanes = s.lanes := rfl
@[simp] theorem State.setProposal_lanePtr (e : ProposalIndex) (x : Option Proposal) : (s.setProposal e x).lanePtr = s.lanePtr := rfl
@[simp] theorem State.setProposal_ports (e : ProposalIndex) (x : Option Proposal) : (s.setProposal e x).ports = s.ports := rfl
@[simp] theorem State.setProposal_fuses (e : ProposalIndex) (x : Option Proposal) : (s.setProposal e x).fuses = s.fuses := rfl
@[simp] theorem State.setProposal_burn (e : ProposalIndex) (x : Option Proposal) : (s.setProposal e x).burn = s.burn := rfl
@[simp] theorem State.setProposal_shadow (e : ProposalIndex) (x : Option Proposal) : (s.setProposal e x).shadow = s.shadow := rfl
@[simp] theorem State.setProposal_ready (e : ProposalIndex) (x : Option Proposal) : (s.setProposal e x).ready = s.ready := rfl
@[simp] theorem State.setProposal_rstnLow (e : ProposalIndex) (x : Option Proposal) : (s.setProposal e x).rstnLow = s.rstnLow := rfl
@[simp] theorem State.setProposal_phase (e : ProposalIndex) (x : Option Proposal) : (s.setProposal e x).phase = s.phase := rfl
@[simp] theorem State.setProposal_time (e : ProposalIndex) (x : Option Proposal) : (s.setProposal e x).time = s.time := rfl
@[simp] theorem State.setProposal_pending (e : ProposalIndex) (x : Option Proposal) : (s.setProposal e x).pending = s.pending := rfl

@[simp] theorem State.port_setProposal (e : ProposalIndex) (x : Option Proposal) (p2 : Port) : (s.setProposal e x).port p2 = s.port p2 := rfl
@[simp] theorem State.slot_setProposal (e : ProposalIndex) (x : Option Proposal) (k2 : SlotIndex) : (s.setProposal e x).slot k2 = s.slot k2 := rfl
@[simp] theorem State.record_setProposal (e : ProposalIndex) (x : Option Proposal) (r2 : RecordIndex) : (s.setProposal e x).record r2 = s.record r2 := rfl
@[simp] theorem State.context_setProposal (e : ProposalIndex) (x : Option Proposal) (b2 : Handle) : (s.setProposal e x).context b2 = s.context b2 := rfl
@[simp] theorem State.lease_setProposal (e : ProposalIndex) (x : Option Proposal) (e2 : LeaseIndex) : (s.setProposal e x).lease e2 = s.lease e2 := rfl
@[simp] theorem State.lane_setProposal (e : ProposalIndex) (x : Option Proposal) (l2 : LaneIndex) : (s.setProposal e x).lane l2 = s.lane l2 := rfl
@[simp] theorem State.fuse_setProposal (e : ProposalIndex) (x : Option Proposal) (f2 : FuseField) : (s.setProposal e x).fuse f2 = s.fuse f2 := rfl
@[simp] theorem State.session_setProposal (e : ProposalIndex) (x : Option Proposal) (p2 : Port) : (s.setProposal e x).session p2 = s.session p2 := rfl
@[simp] theorem State.proposal_setProposal_self (e : ProposalIndex) (x : Option Proposal) : (s.setProposal e x).proposal e = x := by
  simp [State.proposal, State.setProposal]
theorem State.proposal_setProposal_ne {e j : ProposalIndex} (x : Option Proposal) (h : j ≠ e) : (s.setProposal e x).proposal j = s.proposal j := by
  have h' : e.val ≠ j.val := fun c => h (Fin.ext c.symm)
  simp [State.proposal, State.setProposal, h']
theorem State.proposal_setProposal_ite (e j : ProposalIndex) (x : Option Proposal) :
    (s.setProposal e x).proposal j = if j = e then x else s.proposal j := by
  by_cases h : j = e
  · subst h; simp
  · simp [h, State.proposal_setProposal_ne s x h]
/-- Writing back what is there changes nothing. -/
@[simp] theorem State.setProposal_proposal (e : ProposalIndex) : s.setProposal e (s.proposal e) = s := by
  have : s.proposals.set e s.proposals[e] = s.proposals := by simp
  simp [State.setProposal, State.proposal]
/-- The later write at one index wins. -/
@[simp] theorem State.setProposal_setProposal (e : ProposalIndex) (x y) : (s.setProposal e x).setProposal e y = s.setProposal e y := by
  simp [State.setProposal]

/-! ### setLease -/

@[simp] theorem State.setLease_store (e : LeaseIndex) (x : Option Lease) : (s.setLease e x).store = s.store := rfl
@[simp] theorem State.setLease_freeList (e : LeaseIndex) (x : Option Lease) : (s.setLease e x).freeList = s.freeList := rfl
@[simp] theorem State.setLease_records (e : LeaseIndex) (x : Option Lease) : (s.setLease e x).records = s.records := rfl
@[simp] theorem State.setLease_storeLowArmed (e : LeaseIndex) (x : Option Lease) : (s.setLease e x).storeLowArmed = s.storeLowArmed := rfl
@[simp] theorem State.setLease_slots (e : LeaseIndex) (x : Option Lease) : (s.setLease e x).slots = s.slots := rfl
@[simp] theorem State.setLease_contexts (e : LeaseIndex) (x : Option Lease) : (s.setLease e x).contexts = s.contexts := rfl
@[simp] theorem State.setLease_proposals (e : LeaseIndex) (x : Option Lease) : (s.setLease e x).proposals = s.proposals := rfl
@[simp] theorem State.setLease_sessions (e : LeaseIndex) (x : Option Lease) : (s.setLease e x).sessions = s.sessions := rfl
@[simp] theorem State.setLease_controlPtr (e : LeaseIndex) (x : Option Lease) : (s.setLease e x).controlPtr = s.controlPtr := rfl
@[simp] theorem State.setLease_requests (e : LeaseIndex) (x : Option Lease) : (s.setLease e x).requests = s.requests := rfl
@[simp] theorem State.setLease_lanes (e : LeaseIndex) (x : Option Lease) : (s.setLease e x).lanes = s.lanes := rfl
@[simp] theorem State.setLease_lanePtr (e : LeaseIndex) (x : Option Lease) : (s.setLease e x).lanePtr = s.lanePtr := rfl
@[simp] theorem State.setLease_ports (e : LeaseIndex) (x : Option Lease) : (s.setLease e x).ports = s.ports := rfl
@[simp] theorem State.setLease_fuses (e : LeaseIndex) (x : Option Lease) : (s.setLease e x).fuses = s.fuses := rfl
@[simp] theorem State.setLease_burn (e : LeaseIndex) (x : Option Lease) : (s.setLease e x).burn = s.burn := rfl
@[simp] theorem State.setLease_shadow (e : LeaseIndex) (x : Option Lease) : (s.setLease e x).shadow = s.shadow := rfl
@[simp] theorem State.setLease_ready (e : LeaseIndex) (x : Option Lease) : (s.setLease e x).ready = s.ready := rfl
@[simp] theorem State.setLease_rstnLow (e : LeaseIndex) (x : Option Lease) : (s.setLease e x).rstnLow = s.rstnLow := rfl
@[simp] theorem State.setLease_phase (e : LeaseIndex) (x : Option Lease) : (s.setLease e x).phase = s.phase := rfl
@[simp] theorem State.setLease_time (e : LeaseIndex) (x : Option Lease) : (s.setLease e x).time = s.time := rfl
@[simp] theorem State.setLease_pending (e : LeaseIndex) (x : Option Lease) : (s.setLease e x).pending = s.pending := rfl

@[simp] theorem State.port_setLease (e : LeaseIndex) (x : Option Lease) (p2 : Port) : (s.setLease e x).port p2 = s.port p2 := rfl
@[simp] theorem State.slot_setLease (e : LeaseIndex) (x : Option Lease) (k2 : SlotIndex) : (s.setLease e x).slot k2 = s.slot k2 := rfl
@[simp] theorem State.record_setLease (e : LeaseIndex) (x : Option Lease) (r2 : RecordIndex) : (s.setLease e x).record r2 = s.record r2 := rfl
@[simp] theorem State.context_setLease (e : LeaseIndex) (x : Option Lease) (b2 : Handle) : (s.setLease e x).context b2 = s.context b2 := rfl
@[simp] theorem State.proposal_setLease (e : LeaseIndex) (x : Option Lease) (e2 : ProposalIndex) : (s.setLease e x).proposal e2 = s.proposal e2 := rfl
@[simp] theorem State.lane_setLease (e : LeaseIndex) (x : Option Lease) (l2 : LaneIndex) : (s.setLease e x).lane l2 = s.lane l2 := rfl
@[simp] theorem State.fuse_setLease (e : LeaseIndex) (x : Option Lease) (f2 : FuseField) : (s.setLease e x).fuse f2 = s.fuse f2 := rfl
@[simp] theorem State.session_setLease (e : LeaseIndex) (x : Option Lease) (p2 : Port) : (s.setLease e x).session p2 = s.session p2 := rfl
@[simp] theorem State.lease_setLease_self (e : LeaseIndex) (x : Option Lease) : (s.setLease e x).lease e = x := by
  simp [State.lease, State.setLease]
theorem State.lease_setLease_ne {e j : LeaseIndex} (x : Option Lease) (h : j ≠ e) : (s.setLease e x).lease j = s.lease j := by
  have h' : e.val ≠ j.val := fun c => h (Fin.ext c.symm)
  simp [State.lease, State.setLease, h']
theorem State.lease_setLease_ite (e j : LeaseIndex) (x : Option Lease) :
    (s.setLease e x).lease j = if j = e then x else s.lease j := by
  by_cases h : j = e
  · subst h; simp
  · simp [h, State.lease_setLease_ne s x h]
/-- Writing back what is there changes nothing. -/
@[simp] theorem State.setLease_lease (e : LeaseIndex) : s.setLease e (s.lease e) = s := by
  have : s.leases.set e s.leases[e] = s.leases := by simp
  simp [State.setLease, State.lease]
/-- The later write at one index wins. -/
@[simp] theorem State.setLease_setLease (e : LeaseIndex) (x y) : (s.setLease e x).setLease e y = s.setLease e y := by
  simp [State.setLease]

/-! ### setLane -/

@[simp] theorem State.setLane_store (l : LaneIndex) (x : Option LaneWork) : (s.setLane l x).store = s.store := rfl
@[simp] theorem State.setLane_freeList (l : LaneIndex) (x : Option LaneWork) : (s.setLane l x).freeList = s.freeList := rfl
@[simp] theorem State.setLane_records (l : LaneIndex) (x : Option LaneWork) : (s.setLane l x).records = s.records := rfl
@[simp] theorem State.setLane_storeLowArmed (l : LaneIndex) (x : Option LaneWork) : (s.setLane l x).storeLowArmed = s.storeLowArmed := rfl
@[simp] theorem State.setLane_slots (l : LaneIndex) (x : Option LaneWork) : (s.setLane l x).slots = s.slots := rfl
@[simp] theorem State.setLane_contexts (l : LaneIndex) (x : Option LaneWork) : (s.setLane l x).contexts = s.contexts := rfl
@[simp] theorem State.setLane_proposals (l : LaneIndex) (x : Option LaneWork) : (s.setLane l x).proposals = s.proposals := rfl
@[simp] theorem State.setLane_leases (l : LaneIndex) (x : Option LaneWork) : (s.setLane l x).leases = s.leases := rfl
@[simp] theorem State.setLane_sessions (l : LaneIndex) (x : Option LaneWork) : (s.setLane l x).sessions = s.sessions := rfl
@[simp] theorem State.setLane_controlPtr (l : LaneIndex) (x : Option LaneWork) : (s.setLane l x).controlPtr = s.controlPtr := rfl
@[simp] theorem State.setLane_requests (l : LaneIndex) (x : Option LaneWork) : (s.setLane l x).requests = s.requests := rfl
@[simp] theorem State.setLane_lanePtr (l : LaneIndex) (x : Option LaneWork) : (s.setLane l x).lanePtr = s.lanePtr := rfl
@[simp] theorem State.setLane_ports (l : LaneIndex) (x : Option LaneWork) : (s.setLane l x).ports = s.ports := rfl
@[simp] theorem State.setLane_fuses (l : LaneIndex) (x : Option LaneWork) : (s.setLane l x).fuses = s.fuses := rfl
@[simp] theorem State.setLane_burn (l : LaneIndex) (x : Option LaneWork) : (s.setLane l x).burn = s.burn := rfl
@[simp] theorem State.setLane_shadow (l : LaneIndex) (x : Option LaneWork) : (s.setLane l x).shadow = s.shadow := rfl
@[simp] theorem State.setLane_ready (l : LaneIndex) (x : Option LaneWork) : (s.setLane l x).ready = s.ready := rfl
@[simp] theorem State.setLane_rstnLow (l : LaneIndex) (x : Option LaneWork) : (s.setLane l x).rstnLow = s.rstnLow := rfl
@[simp] theorem State.setLane_phase (l : LaneIndex) (x : Option LaneWork) : (s.setLane l x).phase = s.phase := rfl
@[simp] theorem State.setLane_time (l : LaneIndex) (x : Option LaneWork) : (s.setLane l x).time = s.time := rfl
@[simp] theorem State.setLane_pending (l : LaneIndex) (x : Option LaneWork) : (s.setLane l x).pending = s.pending := rfl

@[simp] theorem State.port_setLane (l : LaneIndex) (x : Option LaneWork) (p2 : Port) : (s.setLane l x).port p2 = s.port p2 := rfl
@[simp] theorem State.slot_setLane (l : LaneIndex) (x : Option LaneWork) (k2 : SlotIndex) : (s.setLane l x).slot k2 = s.slot k2 := rfl
@[simp] theorem State.record_setLane (l : LaneIndex) (x : Option LaneWork) (r2 : RecordIndex) : (s.setLane l x).record r2 = s.record r2 := rfl
@[simp] theorem State.context_setLane (l : LaneIndex) (x : Option LaneWork) (b2 : Handle) : (s.setLane l x).context b2 = s.context b2 := rfl
@[simp] theorem State.proposal_setLane (l : LaneIndex) (x : Option LaneWork) (e2 : ProposalIndex) : (s.setLane l x).proposal e2 = s.proposal e2 := rfl
@[simp] theorem State.lease_setLane (l : LaneIndex) (x : Option LaneWork) (e2 : LeaseIndex) : (s.setLane l x).lease e2 = s.lease e2 := rfl
@[simp] theorem State.fuse_setLane (l : LaneIndex) (x : Option LaneWork) (f2 : FuseField) : (s.setLane l x).fuse f2 = s.fuse f2 := rfl
@[simp] theorem State.session_setLane (l : LaneIndex) (x : Option LaneWork) (p2 : Port) : (s.setLane l x).session p2 = s.session p2 := rfl
@[simp] theorem State.lane_setLane_self (l : LaneIndex) (x : Option LaneWork) : (s.setLane l x).lane l = x := by
  simp [State.lane, State.setLane]
theorem State.lane_setLane_ne {l j : LaneIndex} (x : Option LaneWork) (h : j ≠ l) : (s.setLane l x).lane j = s.lane j := by
  have h' : l.val ≠ j.val := fun c => h (Fin.ext c.symm)
  simp [State.lane, State.setLane, h']
theorem State.lane_setLane_ite (l j : LaneIndex) (x : Option LaneWork) :
    (s.setLane l x).lane j = if j = l then x else s.lane j := by
  by_cases h : j = l
  · subst h; simp
  · simp [h, State.lane_setLane_ne s x h]
/-- Writing back what is there changes nothing. -/
@[simp] theorem State.setLane_lane (l : LaneIndex) : s.setLane l (s.lane l) = s := by
  have : s.lanes.set l s.lanes[l] = s.lanes := by simp
  simp [State.setLane, State.lane]
/-- The later write at one index wins. -/
@[simp] theorem State.setLane_setLane (l : LaneIndex) (x y) : (s.setLane l x).setLane l y = s.setLane l y := by
  simp [State.setLane]

/-! ### setFuse -/

@[simp] theorem State.setFuse_store (f : FuseField) (x : FuseCell) : (s.setFuse f x).store = s.store := rfl
@[simp] theorem State.setFuse_freeList (f : FuseField) (x : FuseCell) : (s.setFuse f x).freeList = s.freeList := rfl
@[simp] theorem State.setFuse_records (f : FuseField) (x : FuseCell) : (s.setFuse f x).records = s.records := rfl
@[simp] theorem State.setFuse_storeLowArmed (f : FuseField) (x : FuseCell) : (s.setFuse f x).storeLowArmed = s.storeLowArmed := rfl
@[simp] theorem State.setFuse_slots (f : FuseField) (x : FuseCell) : (s.setFuse f x).slots = s.slots := rfl
@[simp] theorem State.setFuse_contexts (f : FuseField) (x : FuseCell) : (s.setFuse f x).contexts = s.contexts := rfl
@[simp] theorem State.setFuse_proposals (f : FuseField) (x : FuseCell) : (s.setFuse f x).proposals = s.proposals := rfl
@[simp] theorem State.setFuse_leases (f : FuseField) (x : FuseCell) : (s.setFuse f x).leases = s.leases := rfl
@[simp] theorem State.setFuse_sessions (f : FuseField) (x : FuseCell) : (s.setFuse f x).sessions = s.sessions := rfl
@[simp] theorem State.setFuse_controlPtr (f : FuseField) (x : FuseCell) : (s.setFuse f x).controlPtr = s.controlPtr := rfl
@[simp] theorem State.setFuse_requests (f : FuseField) (x : FuseCell) : (s.setFuse f x).requests = s.requests := rfl
@[simp] theorem State.setFuse_lanes (f : FuseField) (x : FuseCell) : (s.setFuse f x).lanes = s.lanes := rfl
@[simp] theorem State.setFuse_lanePtr (f : FuseField) (x : FuseCell) : (s.setFuse f x).lanePtr = s.lanePtr := rfl
@[simp] theorem State.setFuse_ports (f : FuseField) (x : FuseCell) : (s.setFuse f x).ports = s.ports := rfl
@[simp] theorem State.setFuse_burn (f : FuseField) (x : FuseCell) : (s.setFuse f x).burn = s.burn := rfl
@[simp] theorem State.setFuse_shadow (f : FuseField) (x : FuseCell) : (s.setFuse f x).shadow = s.shadow := rfl
@[simp] theorem State.setFuse_ready (f : FuseField) (x : FuseCell) : (s.setFuse f x).ready = s.ready := rfl
@[simp] theorem State.setFuse_rstnLow (f : FuseField) (x : FuseCell) : (s.setFuse f x).rstnLow = s.rstnLow := rfl
@[simp] theorem State.setFuse_phase (f : FuseField) (x : FuseCell) : (s.setFuse f x).phase = s.phase := rfl
@[simp] theorem State.setFuse_time (f : FuseField) (x : FuseCell) : (s.setFuse f x).time = s.time := rfl
@[simp] theorem State.setFuse_pending (f : FuseField) (x : FuseCell) : (s.setFuse f x).pending = s.pending := rfl

@[simp] theorem State.port_setFuse (f : FuseField) (x : FuseCell) (p2 : Port) : (s.setFuse f x).port p2 = s.port p2 := rfl
@[simp] theorem State.slot_setFuse (f : FuseField) (x : FuseCell) (k2 : SlotIndex) : (s.setFuse f x).slot k2 = s.slot k2 := rfl
@[simp] theorem State.record_setFuse (f : FuseField) (x : FuseCell) (r2 : RecordIndex) : (s.setFuse f x).record r2 = s.record r2 := rfl
@[simp] theorem State.context_setFuse (f : FuseField) (x : FuseCell) (b2 : Handle) : (s.setFuse f x).context b2 = s.context b2 := rfl
@[simp] theorem State.proposal_setFuse (f : FuseField) (x : FuseCell) (e2 : ProposalIndex) : (s.setFuse f x).proposal e2 = s.proposal e2 := rfl
@[simp] theorem State.lease_setFuse (f : FuseField) (x : FuseCell) (e2 : LeaseIndex) : (s.setFuse f x).lease e2 = s.lease e2 := rfl
@[simp] theorem State.lane_setFuse (f : FuseField) (x : FuseCell) (l2 : LaneIndex) : (s.setFuse f x).lane l2 = s.lane l2 := rfl
@[simp] theorem State.session_setFuse (f : FuseField) (x : FuseCell) (p2 : Port) : (s.setFuse f x).session p2 = s.session p2 := rfl
/-! ### setSession -/

@[simp] theorem State.setSession_store (p : Port) (x : SessionEntry) : (s.setSession p x).store = s.store := rfl
@[simp] theorem State.setSession_freeList (p : Port) (x : SessionEntry) : (s.setSession p x).freeList = s.freeList := rfl
@[simp] theorem State.setSession_records (p : Port) (x : SessionEntry) : (s.setSession p x).records = s.records := rfl
@[simp] theorem State.setSession_storeLowArmed (p : Port) (x : SessionEntry) : (s.setSession p x).storeLowArmed = s.storeLowArmed := rfl
@[simp] theorem State.setSession_slots (p : Port) (x : SessionEntry) : (s.setSession p x).slots = s.slots := rfl
@[simp] theorem State.setSession_contexts (p : Port) (x : SessionEntry) : (s.setSession p x).contexts = s.contexts := rfl
@[simp] theorem State.setSession_proposals (p : Port) (x : SessionEntry) : (s.setSession p x).proposals = s.proposals := rfl
@[simp] theorem State.setSession_leases (p : Port) (x : SessionEntry) : (s.setSession p x).leases = s.leases := rfl
@[simp] theorem State.setSession_controlPtr (p : Port) (x : SessionEntry) : (s.setSession p x).controlPtr = s.controlPtr := rfl
@[simp] theorem State.setSession_requests (p : Port) (x : SessionEntry) : (s.setSession p x).requests = s.requests := rfl
@[simp] theorem State.setSession_lanes (p : Port) (x : SessionEntry) : (s.setSession p x).lanes = s.lanes := rfl
@[simp] theorem State.setSession_lanePtr (p : Port) (x : SessionEntry) : (s.setSession p x).lanePtr = s.lanePtr := rfl
@[simp] theorem State.setSession_fuses (p : Port) (x : SessionEntry) : (s.setSession p x).fuses = s.fuses := rfl
@[simp] theorem State.setSession_burn (p : Port) (x : SessionEntry) : (s.setSession p x).burn = s.burn := rfl
@[simp] theorem State.setSession_shadow (p : Port) (x : SessionEntry) : (s.setSession p x).shadow = s.shadow := rfl
@[simp] theorem State.setSession_ready (p : Port) (x : SessionEntry) : (s.setSession p x).ready = s.ready := rfl
@[simp] theorem State.setSession_rstnLow (p : Port) (x : SessionEntry) : (s.setSession p x).rstnLow = s.rstnLow := rfl
@[simp] theorem State.setSession_phase (p : Port) (x : SessionEntry) : (s.setSession p x).phase = s.phase := rfl
@[simp] theorem State.setSession_time (p : Port) (x : SessionEntry) : (s.setSession p x).time = s.time := rfl
@[simp] theorem State.setSession_pending (p : Port) (x : SessionEntry) : (s.setSession p x).pending = s.pending := rfl

@[simp] theorem State.session_setSession_self (p : Port) (x : SessionEntry) : (s.setSession p x).session p = x := by
  simp [State.session, State.setSession, State.updPort, State.setPort]
theorem State.session_setSession_ne {p q : Port} (x : SessionEntry) (h : q ≠ p) :
    (s.setSession p x).session q = s.session q := by
  have h' : p.val ≠ q.val := fun c => h (Fin.ext c.symm)
  simp [State.session, State.setSession, State.updPort, State.setPort, h']
/-- The entry hands its state to its port (R116). -/
@[simp] theorem State.port_setSession_attached (p : Port) (x : SessionEntry) :
    ((s.setSession p x).port p).attached =
      match x.state with
      | .attached _ => true
      | .detached | .ending _ => false := by
  exact congrArg PortState.attached (State.port_setPort_self ..)
theorem State.port_setSession_ne {p q : Port} (x : SessionEntry) (h : q ≠ p) :
    (s.setSession p x).port q = s.port q := by
  simp only [State.setSession, State.updPort]
  rw [State.port_setPort_ne _ _ h]; rfl

/-! ### updPort -/

@[simp] theorem State.port_updPort_self (p : Port) (f : PortState → PortState) :
    (s.updPort p f).port p = f (s.port p) := by
  simp [State.updPort]
theorem State.port_updPort_ne {p q : Port} (f : PortState → PortState) (h : q ≠ p) :
    (s.updPort p f).port q = s.port q := State.port_setPort_ne _ _ h

@[simp] theorem State.updPort_store (p : Port) (f : PortState → PortState) : (s.updPort p f).store = s.store := rfl
@[simp] theorem State.updPort_freeList (p : Port) (f : PortState → PortState) : (s.updPort p f).freeList = s.freeList := rfl
@[simp] theorem State.updPort_records (p : Port) (f : PortState → PortState) : (s.updPort p f).records = s.records := rfl
@[simp] theorem State.updPort_storeLowArmed (p : Port) (f : PortState → PortState) : (s.updPort p f).storeLowArmed = s.storeLowArmed := rfl
@[simp] theorem State.updPort_slots (p : Port) (f : PortState → PortState) : (s.updPort p f).slots = s.slots := rfl
@[simp] theorem State.updPort_contexts (p : Port) (f : PortState → PortState) : (s.updPort p f).contexts = s.contexts := rfl
@[simp] theorem State.updPort_proposals (p : Port) (f : PortState → PortState) : (s.updPort p f).proposals = s.proposals := rfl
@[simp] theorem State.updPort_leases (p : Port) (f : PortState → PortState) : (s.updPort p f).leases = s.leases := rfl
@[simp] theorem State.updPort_sessions (p : Port) (f : PortState → PortState) : (s.updPort p f).sessions = s.sessions := rfl
@[simp] theorem State.updPort_controlPtr (p : Port) (f : PortState → PortState) : (s.updPort p f).controlPtr = s.controlPtr := rfl
@[simp] theorem State.updPort_requests (p : Port) (f : PortState → PortState) : (s.updPort p f).requests = s.requests := rfl
@[simp] theorem State.updPort_lanes (p : Port) (f : PortState → PortState) : (s.updPort p f).lanes = s.lanes := rfl
@[simp] theorem State.updPort_lanePtr (p : Port) (f : PortState → PortState) : (s.updPort p f).lanePtr = s.lanePtr := rfl
@[simp] theorem State.updPort_fuses (p : Port) (f : PortState → PortState) : (s.updPort p f).fuses = s.fuses := rfl
@[simp] theorem State.updPort_burn (p : Port) (f : PortState → PortState) : (s.updPort p f).burn = s.burn := rfl
@[simp] theorem State.updPort_shadow (p : Port) (f : PortState → PortState) : (s.updPort p f).shadow = s.shadow := rfl
@[simp] theorem State.updPort_ready (p : Port) (f : PortState → PortState) : (s.updPort p f).ready = s.ready := rfl
@[simp] theorem State.updPort_rstnLow (p : Port) (f : PortState → PortState) : (s.updPort p f).rstnLow = s.rstnLow := rfl
@[simp] theorem State.updPort_phase (p : Port) (f : PortState → PortState) : (s.updPort p f).phase = s.phase := rfl
@[simp] theorem State.updPort_time (p : Port) (f : PortState → PortState) : (s.updPort p f).time = s.time := rfl
@[simp] theorem State.updPort_pending (p : Port) (f : PortState → PortState) : (s.updPort p f).pending = s.pending := rfl
@[simp] theorem State.slot_updPort (p : Port) (f : PortState → PortState) (k' : SlotIndex) :
    (s.updPort p f).slot k' = s.slot k' := rfl
@[simp] theorem State.record_updPort (p : Port) (f : PortState → PortState) (r' : RecordIndex) :
    (s.updPort p f).record r' = s.record r' := rfl
@[simp] theorem State.context_updPort (p : Port) (f : PortState → PortState) (b' : Handle) :
    (s.updPort p f).context b' = s.context b' := rfl
@[simp] theorem State.proposal_updPort (p : Port) (f : PortState → PortState) (e' : ProposalIndex) :
    (s.updPort p f).proposal e' = s.proposal e' := rfl
@[simp] theorem State.lease_updPort (p : Port) (f : PortState → PortState) (e' : LeaseIndex) :
    (s.updPort p f).lease e' = s.lease e' := rfl
@[simp] theorem State.lane_updPort (p : Port) (f : PortState → PortState) (l' : LaneIndex) :
    (s.updPort p f).lane l' = s.lane l' := rfl
@[simp] theorem State.fuse_updPort (p : Port) (f : PortState → PortState) (f' : FuseField) :
    (s.updPort p f).fuse f' = s.fuse f' := rfl
@[simp] theorem State.session_updPort (p q : Port) (f : PortState → PortState) :
    (s.updPort p f).session q = s.session q := rfl

/-! ### presentRequest and reevaluate -/

@[simp] theorem State.presentRequest_store (p : Port) : (s.presentRequest p).store = s.store := rfl
@[simp] theorem State.presentRequest_freeList (p : Port) : (s.presentRequest p).freeList = s.freeList := rfl
@[simp] theorem State.presentRequest_records (p : Port) : (s.presentRequest p).records = s.records := rfl
@[simp] theorem State.presentRequest_storeLowArmed (p : Port) : (s.presentRequest p).storeLowArmed = s.storeLowArmed := rfl
@[simp] theorem State.presentRequest_slots (p : Port) : (s.presentRequest p).slots = s.slots := rfl
@[simp] theorem State.presentRequest_contexts (p : Port) : (s.presentRequest p).contexts = s.contexts := rfl
@[simp] theorem State.presentRequest_proposals (p : Port) : (s.presentRequest p).proposals = s.proposals := rfl
@[simp] theorem State.presentRequest_leases (p : Port) : (s.presentRequest p).leases = s.leases := rfl
@[simp] theorem State.presentRequest_sessions (p : Port) : (s.presentRequest p).sessions = s.sessions := rfl
@[simp] theorem State.presentRequest_controlPtr (p : Port) : (s.presentRequest p).controlPtr = s.controlPtr := rfl
@[simp] theorem State.presentRequest_lanes (p : Port) : (s.presentRequest p).lanes = s.lanes := rfl
@[simp] theorem State.presentRequest_lanePtr (p : Port) : (s.presentRequest p).lanePtr = s.lanePtr := rfl
@[simp] theorem State.presentRequest_ports (p : Port) : (s.presentRequest p).ports = s.ports := rfl
@[simp] theorem State.presentRequest_fuses (p : Port) : (s.presentRequest p).fuses = s.fuses := rfl
@[simp] theorem State.presentRequest_burn (p : Port) : (s.presentRequest p).burn = s.burn := rfl
@[simp] theorem State.presentRequest_shadow (p : Port) : (s.presentRequest p).shadow = s.shadow := rfl
@[simp] theorem State.presentRequest_ready (p : Port) : (s.presentRequest p).ready = s.ready := rfl
@[simp] theorem State.presentRequest_rstnLow (p : Port) : (s.presentRequest p).rstnLow = s.rstnLow := rfl
@[simp] theorem State.presentRequest_phase (p : Port) : (s.presentRequest p).phase = s.phase := rfl
@[simp] theorem State.presentRequest_time (p : Port) : (s.presentRequest p).time = s.time := rfl
@[simp] theorem State.presentRequest_pending (p : Port) : (s.presentRequest p).pending = s.pending := rfl
@[simp] theorem State.presentRequest_requests (p : Port) : (s.presentRequest p).requests = s.requests ++ [p] := rfl
@[simp] theorem State.port_presentRequest (p q : Port) : (s.presentRequest p).port q = s.port q := rfl

@[simp] theorem PortState.reevaluate_txn (x : PortState) : x.reevaluate.txn = x.txn := rfl
@[simp] theorem PortState.reevaluate_sent (x : PortState) : x.reevaluate.sent = x.sent := rfl
@[simp] theorem PortState.reevaluate_cmdQueue (x : PortState) : x.reevaluate.cmdQueue = x.cmdQueue := rfl
@[simp] theorem PortState.reevaluate_inExec (x : PortState) : x.reevaluate.inExec = x.inExec := rfl
@[simp] theorem PortState.reevaluate_respQueue (x : PortState) : x.reevaluate.respQueue = x.respQueue := rfl
@[simp] theorem PortState.reevaluate_lastFetched (x : PortState) : x.reevaluate.lastFetched = x.lastFetched := rfl
@[simp] theorem PortState.reevaluate_events (x : PortState) : x.reevaluate.events = x.events := rfl
@[simp] theorem PortState.reevaluate_lost (x : PortState) : x.reevaluate.lost = x.lost := rfl
@[simp] theorem PortState.reevaluate_resetting (x : PortState) : x.reevaluate.resetting = x.resetting := rfl
@[simp] theorem PortState.reevaluate_teardownOutstanding (x : PortState) : x.reevaluate.teardownOutstanding = x.teardownOutstanding := rfl
@[simp] theorem PortState.reevaluate_attached (x : PortState) : x.reevaluate.attached = x.attached := rfl
@[simp] theorem PortState.reevaluate_prstnLow (x : PortState) : x.reevaluate.prstnLow = x.prstnLow := rfl
@[simp] theorem PortState.reevaluate_cuts (x : PortState) : x.reevaluate.cuts = x.cuts := rfl
@[simp] theorem PortState.reevaluate_attn (x : PortState) : x.reevaluate.attn = x.wantsAttention := rfl
@[simp] theorem PortState.reevaluate_window (x : PortState) : x.reevaluate.window = x.window := rfl
@[simp] theorem PortState.reevaluate_wantsAttention (x : PortState) :
    x.reevaluate.wantsAttention = x.wantsAttention := rfl

end Sys2Proof.Machine
end

