-- ==== Sys2Proof/Laws/Ops.lean ====
section
/-! SUPPORT. One lemma for each shared operation that says what it can do, to be cited in place of unfolding it. A frame
lemma is an equation: the fields it names are all that the operation touches. -/

namespace Sys2Proof.Machine

/-! ## Folds -/

/-- What holds at the start of a fold and is kept by each of its steps holds at its end. -/
theorem foldl_induction {α β : Type} (P : β → Prop) (f : β → α → β) (xs : List α) (b : β) (h0 : P b)
    (hs : ∀ b a, a ∈ xs → P b → P (f b a)) : P (xs.foldl f b) := by
  induction xs generalizing b with
  | nil => exact h0
  | cons x xs ih =>
    exact ih (f b x) (hs b x (List.mem_cons_self ..) h0)
      (fun b a ha => hs b a (List.mem_cons_of_mem _ ha))

/-! ## Selections -/

/-- The lowest index that satisfies a test. -/
theorem find?_finRange_eq_some {n : Nat} {f : Fin n → Bool} {i : Fin n} :
    (List.finRange n).find? f = some i ↔ f i = true ∧ ∀ j, j < i → f j = false := by
  rw [List.find?_eq_some_iff_getElem]
  constructor
  · rintro ⟨hf, k, hk, rfl, h⟩
    refine ⟨hf, fun j hj => ?_⟩
    simp only [List.getElem_finRange] at hj
    have hj' : j.val < k := by simpa [Fin.lt_def] using hj
    have := h j.val hj'
    simpa using this
  · rintro ⟨hf, h⟩
    refine ⟨hf, i.val, by simp, by simp, fun j hj => ?_⟩
    have hjn : j < n := Nat.lt_trans hj i.isLt
    simpa using h ⟨j, hjn⟩ (by simpa [Fin.lt_def] using hj)

theorem find?_finRange_eq_none {n : Nat} {f : Fin n → Bool} :
    (List.finRange n).find? f = none ↔ ∀ i, f i = false := by
  simp [List.find?_eq_none]

theorem freeRecordIndex_eq_some {s : State} {r : RecordIndex} :
    s.freeRecordIndex = some r ↔ s.record r = none ∧ ∀ r', r' < r → s.record r' ≠ none := by
  simp only [State.freeRecordIndex, find?_finRange_eq_some, Option.isNone_iff_eq_none, Option.isNone_eq_false_iff,
    Option.isSome_iff_ne_none]

theorem freeRecordIndex_eq_none {s : State} : s.freeRecordIndex = none ↔ ∀ r, s.record r ≠ none := by
  simp only [State.freeRecordIndex, find?_finRange_eq_none, Option.isNone_eq_false_iff, Option.isSome_iff_ne_none]

theorem freeHandle_eq_some {s : State} {h : Handle} :
    s.freeHandle = some h ↔ s.context h = none ∧ ∀ h', h' < h → s.context h' ≠ none := by
  simp only [State.freeHandle, find?_finRange_eq_some, Option.isNone_iff_eq_none, Option.isNone_eq_false_iff,
    Option.isSome_iff_ne_none]

theorem freeHandle_eq_none {s : State} : s.freeHandle = none ↔ ∀ h, s.context h ≠ none := by
  simp only [State.freeHandle, find?_finRange_eq_none, Option.isNone_eq_false_iff, Option.isSome_iff_ne_none]

theorem freeProposalIndex_eq_some {s : State} {e : ProposalIndex} :
    s.freeProposalIndex = some e ↔ s.proposal e = none ∧ ∀ e', e' < e → s.proposal e' ≠ none := by
  simp only [State.freeProposalIndex, find?_finRange_eq_some, Option.isNone_iff_eq_none, Option.isNone_eq_false_iff,
    Option.isSome_iff_ne_none]

theorem freeProposalIndex_eq_none {s : State} : s.freeProposalIndex = none ↔ ∀ e, s.proposal e ≠ none := by
  simp only [State.freeProposalIndex, find?_finRange_eq_none, Option.isNone_eq_false_iff, Option.isSome_iff_ne_none]

theorem freeLeaseIndex_eq_some {s : State} {e : LeaseIndex} :
    s.freeLeaseIndex = some e ↔ s.lease e = none ∧ ∀ e', e' < e → s.lease e' ≠ none := by
  simp only [State.freeLeaseIndex, find?_finRange_eq_some, Option.isNone_iff_eq_none, Option.isNone_eq_false_iff,
    Option.isSome_iff_ne_none]

theorem freeLeaseIndex_eq_none {s : State} : s.freeLeaseIndex = none ↔ ∀ e, s.lease e ≠ none := by
  simp only [State.freeLeaseIndex, find?_finRange_eq_none, Option.isNone_eq_false_iff, Option.isSome_iff_ne_none]

theorem idleLane_eq_some {s : State} {l : LaneIndex} :
    s.idleLane = some l ↔ s.lane l = none ∧ ∀ l', l' < l → s.lane l' ≠ none := by
  simp only [State.idleLane, find?_finRange_eq_some, Option.isNone_iff_eq_none, Option.isNone_eq_false_iff,
    Option.isSome_iff_ne_none]

theorem callersLease_eq_some {s : State} {p : Port} {k : SlotIndex} {e : LeaseIndex} {l : Lease}
    (h : s.callersLease p k = some (e, l)) :
    s.lease e = some l ∧ l.port = p ∧ l.slot = k ∧ s.isUnder p l.session = true := by
  obtain ⟨e', -, h⟩ := List.exists_of_findSome?_eq_some h
  split at h
  · split at h
    · simp only [Option.some.injEq, Prod.mk.injEq] at h
      obtain ⟨rfl, rfl⟩ := h
      exact ⟨‹_›, ‹_›⟩
    · simp at h
  · simp at h

/-! ## Sessions -/

theorem currentSession_eq_some {s : State} {p : Port} {n : Session} :
    s.currentSession p = some n ↔ (s.session p).state = .attached n := by
  unfold State.currentSession
  split <;> simp_all

theorem isAttached_iff {s : State} {p : Port} : s.isAttached p = true ↔ ∃ n, (s.session p).state = .attached n := by
  simp [State.isAttached, Option.isSome_iff_exists, currentSession_eq_some]

theorem isUnder_iff {s : State} {p : Port} {n : Session} :
    s.isUnder p n = true ↔ (s.session p).state = .attached n := by
  simp [State.isUnder, currentSession_eq_some]

/-! ## Events (Table 86) -/

/-- What arrival of a record does to a port. -/
theorem receive_cases (x : PortState) (e : EventRecord) :
    (x.resetting = true ∧ x.receive e = x)
    ∨ (x.resetting = false ∧ x.events.length < 16
        ∧ x.receive e = { x with events := x.events ++ [e], attn := true })
    ∨ (x.resetting = false ∧ 16 ≤ x.events.length
        ∧ x.receive e = { x with lost := true, attn := true, txn := x.txn.map Txn.noteDrop }) := by
  unfold PortState.receive
  split
  · exact .inl ⟨‹_›, rfl⟩
  · rename_i h
    have h : x.resetting = false := by simpa using h
    split
    · exact .inr (.inl ⟨h, ‹_›, by simp [PortState.reevaluate, PortState.wantsAttention]⟩)
    · rename_i h'
      refine .inr (.inr ⟨h, by simpa [Config.eventCapacity] using h', ?_⟩)
      simp [PortState.reevaluate, PortState.wantsAttention]

/-- A delivery touches the ports alone. -/
theorem deliverEvent_frame (s : State) (p : Port) (e : EventRecord) :
    s.deliverEvent p e = { s with ports := (s.deliverEvent p e).ports } := by
  unfold State.deliverEvent
  split <;> rfl

theorem deliverEvent_port_ne (s : State) {p q : Port} (e : EventRecord) (h : q ≠ p) :
    (s.deliverEvent p e).port q = s.port q := by
  unfold State.deliverEvent
  split
  · exact State.port_updPort_ne _ _ h
  · rfl

theorem deliverEvent_port_self (s : State) (p : Port) (e : EventRecord) :
    (s.deliverEvent p e).port p = if s.isAttached p then (s.port p).receive e else s.port p := by
  unfold State.deliverEvent
  split <;> simp

/-- A delivery to several ports touches the ports alone. -/
theorem deliverWhere_frame (s : State) (f : Port → Bool) (e : EventRecord) :
    s.deliverWhere f e = { s with ports := (s.deliverWhere f e).ports } := by
  unfold State.deliverWhere
  refine foldl_induction (fun t => t = { s with ports := t.ports }) _ _ s rfl (fun t p _ ht => ?_)
  split
  · rw [deliverEvent_frame]; rw [ht]
  · exact ht

/-- A property of each port that the arrival of a record keeps is kept by a delivery to several. -/
theorem deliverWhere_port_induction (P : PortState → Prop) (s : State) (f : Port → Bool) (e : EventRecord)
    (hr : ∀ x, P x → P (x.receive e)) (h : ∀ p, P (s.port p)) (p : Port) : P ((s.deliverWhere f e).port p) := by
  unfold State.deliverWhere
  refine foldl_induction (fun t => ∀ p, P (t.port p)) _ _ s h (fun t q _ ht => ?_) p
  intro p
  split
  · by_cases hp : p = q
    · subst hp
      rw [deliverEvent_port_self]
      split
      · exact hr _ (ht p)
      · exact ht p
    · rw [deliverEvent_port_ne _ _ hp]; exact ht p
  · exact ht p

/-! ## Blocks, records and references -/

theorem returnBlocks_frame (s : State) (bs : List BlockIndex) :
    s.returnBlocks bs = { s with freeList := s.freeList ++ bs, storeLowArmed := (s.returnBlocks bs).storeLowArmed } := by
  unfold State.returnBlocks
  split
  · rename_i h
    rw [List.isEmpty_iff.1 h]; simp
  · rfl

/-- A return request of at least one block (R6, R18). -/
theorem returnBlocks_of_ne_nil (s : State) {bs : List BlockIndex} (h : bs ≠ []) :
    s.returnBlocks bs = { s with
      freeList := s.freeList ++ bs
      storeLowArmed := s.storeLowArmed || decide (64 ≤ (s.freeList ++ bs).length) } := by
  unfold State.returnBlocks
  rw [if_neg (by simpa using h)]
  rfl

/-- Freeing a FREE record does nothing; freeing one in use returns its blocks and clears it, and may vacate its slot. -/
theorem freeRecord_cases (s : State) (r : RecordIndex) :
    (s.record r = none ∧ s.freeRecord r = s)
    ∨ ∃ g, s.record r = some g
        ∧ (s.freeRecord r = (s.returnBlocks g.blocks).setRecord r none
          ∨ (g.state.isSuperseded = true ∧ (s.slot g.slot).state.isRetiring = true
            ∧ s.freeRecord r = ((s.returnBlocks g.blocks).setRecord r none).setSlot g.slot SlotRecord.vacant)) := by
  unfold State.freeRecord
  split
  · exact .inl ⟨‹_›, rfl⟩
  · rename_i g hg
    refine .inr ⟨g, hg, ?_⟩
    dsimp only
    split
    · rename_i h
      have hs : ((s.returnBlocks g.blocks).setRecord r none).slot g.slot = s.slot g.slot := by
        rw [returnBlocks_frame]; rfl
      simp only [Bool.and_eq_true, hs] at h
      exact .inr ⟨h.1.1, h.1.2, rfl⟩
    · exact .inl rfl

/-- Freeing a record touches the free list, the arm state, the record and the slots alone. -/
theorem freeRecord_frame (s : State) (r : RecordIndex) :
    s.freeRecord r = { s with
      freeList := (s.freeRecord r).freeList, storeLowArmed := (s.freeRecord r).storeLowArmed
      records := (s.freeRecord r).records, slots := (s.freeRecord r).slots } := by
  rcases freeRecord_cases s r with ⟨-, h⟩ | ⟨g, -, h | ⟨-, -, h⟩⟩ <;> rw [h]
  · rw [returnBlocks_frame]; rfl
  · rw [returnBlocks_frame]; rfl

theorem raiseReference_of_some {s : State} {r : RecordIndex} {g : GenRecord} (h : s.record r = some g) :
    s.raiseReference r = s.setRecord r (some { g with refCount := g.refCount + 1 }) := by
  simp [State.raiseReference, h]

/-- Dropping a reference touches what freeing a record touches. -/
theorem dropReference_frame (s : State) (r : RecordIndex) :
    s.dropReference r = { s with
      freeList := (s.dropReference r).freeList, storeLowArmed := (s.dropReference r).storeLowArmed
      records := (s.dropReference r).records, slots := (s.dropReference r).slots } := by
  unfold State.dropReference
  split
  · rfl
  · dsimp only
    split
    · rw [freeRecord_frame]; rfl
    · rfl

theorem setGenState_frame (s : State) (r : RecordIndex) (x : GenState) :
    s.setGenState r x = { s with records := (s.setGenState r x).records } := by
  unfold State.setGenState
  split <;> rfl

theorem supersede_frame (s : State) (r : RecordIndex) :
    s.supersede r = { s with
      freeList := (s.supersede r).freeList, storeLowArmed := (s.supersede r).storeLowArmed
      records := (s.supersede r).records, slots := (s.supersede r).slots } := by
  unfold State.supersede
  split
  · rfl
  · dsimp only
    split
    · rw [freeRecord_frame, setGenState_frame]
    · rw [setGenState_frame]

theorem removeLease_frame (s : State) (e : LeaseIndex) :
    s.removeLease e = { s with
      freeList := (s.removeLease e).freeList, storeLowArmed := (s.removeLease e).storeLowArmed
      records := (s.removeLease e).records, slots := (s.removeLease e).slots, leases := (s.removeLease e).leases } := by
  unfold State.removeLease
  split
  · rfl
  · rw [dropReference_frame]; rfl

theorem removeLease_lease (s : State) (e : LeaseIndex) :
    (s.removeLease e).leases = (s.setLease e none).leases := by
  unfold State.removeLease
  split
  · rename_i h
    have h : s.lease e = none := h
    rw [show s.setLease e none = s by rw [← h]; simp]
  · rw [dropReference_frame]

theorem discardBuild_frame (s : State) (h : Handle) :
    s.discardBuild h = { s with
      freeList := (s.discardBuild h).freeList, storeLowArmed := (s.discardBuild h).storeLowArmed
      records := (s.discardBuild h).records, slots := (s.discardBuild h).slots
      contexts := (s.discardBuild h).contexts } := by
  unfold State.discardBuild
  split
  · rfl
  · dsimp only
    rw [freeRecord_frame]; rfl

theorem discardBuild_context (s : State) (h : Handle) :
    (s.discardBuild h).contexts = (s.setContext h none).contexts := by
  unfold State.discardBuild
  split
  · rename_i hn
    have hn : s.context h = none := hn
    rw [show s.setContext h none = s by rw [← hn]; simp]
  · dsimp only
    rw [freeRecord_frame]; rfl

/-! ## Responses -/

/-- A response touches its port and, for a discarded ATTACH response, the teardown requests. -/
theorem deliverResponse_frame (s : State) (p : Port) (r : Response) :
    s.deliverResponse p r = { s with
      ports := (s.deliverResponse p r).ports, requests := (s.deliverResponse p r).requests } := by
  unfold State.deliverResponse
  split
  · rfl
  · split
    · split <;> rfl
    · rfl

theorem deliverResponse_port_ne (s : State) {p q : Port} (r : Response) (h : q ≠ p) :
    (s.deliverResponse p r).port q = s.port q := by
  unfold State.deliverResponse
  split
  · rfl
  · split
    · split
      · rw [State.port_presentRequest]; exact State.port_updPort_ne _ _ h
      · exact State.port_updPort_ne _ _ h
    · exact State.port_updPort_ne _ _ h

/-! ## The command a claim carries out -/

theorem slotOf_eq_some {b : Byte} {k : SlotIndex} : slotOf b = some k ↔ b.toNat = k.val := by
  unfold slotOf
  split <;> (simp [Fin.ext_iff]; try omega)

theorem handleOf_eq_some {b : Byte} {h : Handle} : handleOf b = some h ↔ b.toNat = h.val := by
  unfold handleOf
  split <;> (simp [Fin.ext_iff]; try omega)

/-- What a port's teardown finds on a slot that it leases or whose proposal it has approved (R122). -/
theorem leasesOrApproves_iff {s : State} {p : Port} {k : SlotIndex} :
    s.leasesOrApproves p k = true ↔
      (∃ e l, s.lease e = some l ∧ l.port = p ∧ l.slot = k)
        ∨ (∃ e q, s.proposal e = some q ∧ q.slot = k ∧ q.approvals[p] ≠ none) := by
  simp [State.leasesOrApproves, Option.any_eq_true, Option.isSome_iff_ne_none]

theorem buildsOn_iff {s : State} {p : Port} {k : SlotIndex} :
    s.buildsOn p k = true ↔ ∃ h c, s.context h = some c ∧ c.owner = p ∧ c.slot = k := by
  simp [State.buildsOn, Option.any_eq_true]

/-- When an answer reports an adoption. -/
theorem isAdoption_iff {r : CommandResult} :
    r.isAdoption = true ↔ ∃ u rest, r = .answer u .ok (ProposalOutcome.adopted.code :: rest) := by
  cases r with
  | answer u st payload => cases payload <;> simp [CommandResult.isAdoption, and_comm]
  | handOver u => simp [CommandResult.isAdoption]
  | fault e => simp [CommandResult.isAdoption]

/-- A pending teardown of a port waits (R135). -/
theorem teardownWaits_iff {s : State} {p : Port} :
    s.teardownWaits p = true ↔ (∃ n, (s.session p).state = .ending n) ∧ (s.session p).teardownPending = true := by
  unfold State.teardownWaits
  split <;> simp_all

/-- When the Table Manager may take a control command (R134; log 23). -/
theorem takesCommand_iff {s : State} {p : Port} {f : Frame} :
    s.takesCommand p f = true ↔
      s.takesTeardowns = true ∧ ∀ q, s.teardownWaits q = true → s.meetsTeardown p f q = true := by
  simp only [State.takesCommand, allPorts, Bool.and_eq_true, List.all_eq_true, List.mem_finRange, forall_const,
    Bool.or_eq_true, Bool.not_eq_true']
  refine and_congr_right fun _ => forall_congr' fun q => ?_
  cases s.teardownWaits q <;> simp

/-- The command that the arbiter gives is the head of its port's queue, its port may pass it, and no claim that R134 puts
first goes before it. -/
theorem nextCommand_eq_some {s : State} {p : Port} {f : Frame} (h : s.nextCommand p = some f) :
    s.takesCommand p f = true ∧ s.controlChoice = some p ∧ (s.port p).cmdQueue.head? = some f
      ∧ s.isEnabled p = true ∧ (s.port p).resetting = false ∧ (s.port p).inExec = none ∧ f.kind.isLookup = false := by
  unfold State.nextCommand at h
  split at h
  · rename_i hc
    rw [beq_iff_eq] at hc
    obtain ⟨hh, ht⟩ := Option.filter_eq_some_iff.mp h
    have he := List.find?_some hc
    simp only [State.controlEligible, State.mayPass, hh, Bool.and_eq_true, Bool.not_eq_true', Option.isNone_iff_eq_none,
      Option.any_some] at he
    exact ⟨ht, hc, hh, he.1.1.1, he.1.1.2, he.1.2, he.2⟩
  · simp at h

/-- What the taking of a port's head command touches. -/
theorem takeCommand_frame (s : State) (p : Port) :
    s.takeCommand p = { s with ports := (s.takeCommand p).ports, controlPtr := p + 1 } := rfl

/-- Where the command of a control row comes from. -/
theorem claimCommand_cases {s t : State} {p : Port} {k : CommandKind} {f : Frame}
    (h : s.claimCommand p k = some (f, t)) :
    f.kind = k
      ∧ ((s.carrying = some p ∧ (∃ e, (s.port p).inExec = some e ∧ e.frame = f) ∧ t = s)
        ∨ (s.nextCommand p = some f ∧ t = s.takeCommand p)) := by
  unfold State.claimCommand at h
  split at h
  · rename_i q hq
    split at h
    · rename_i e he
      split at h
      · rename_i hc
        simp only [Option.some.injEq, Prod.mk.injEq] at h
        obtain ⟨rfl, rfl⟩ := h
        exact ⟨hc.2, .inl ⟨hc.1 ▸ hq, ⟨e, he, rfl⟩, rfl⟩⟩
      · simp at h
    · simp at h
  · split at h
    · rename_i f' hf
      split at h
      · rename_i hk
        simp only [Option.some.injEq, Prod.mk.injEq] at h
        obtain ⟨rfl, rfl⟩ := h
        exact ⟨hk, .inr ⟨hf, rfl⟩⟩
      · simp at h
    · simp at h

/-- A control row waits, answers, hands over or faults, as its body says on the command it carries out. -/
theorem controlCommand_cases (p : Port) (k : CommandKind) (body : Frame → State → CommandResult) (s : State) :
    (s.claimCommand p k = none ∧ controlCommand p k body s = .next s)
    ∨ ∃ f t, s.claimCommand p k = some (f, t)
        ∧ ((∃ u st pl, body f t = .answer u st pl
            ∧ controlCommand p k body s = .next (u.deliverResponse p ⟨f.kind, f.tag, st, pl⟩))
          ∨ (∃ u, body f t = .handOver u ∧ controlCommand p k body s = .next u)
          ∨ (∃ e, body f t = .fault e ∧ controlCommand p k body s = .fault e)) := by
  unfold controlCommand
  split
  · exact .inl ⟨‹_›, rfl⟩
  · rename_i f t h
    refine .inr ⟨f, t, h, ?_⟩
    cases hb : body f t with
    | answer u st pl => exact .inl ⟨u, st, pl, rfl, rfl⟩
    | handOver u => exact .inr (.inl ⟨u, rfl, rfl⟩)
    | fault e => exact .inr (.inr ⟨e, rfl, rfl⟩)

/-- The row of a body that answers on the command it carries out. -/
theorem controlCommand_answer {p : Port} {k : CommandKind} {body : Frame → State → CommandResult} {s t u : State}
    {f : Frame} {st : Status} {pl : List Byte} (h : s.claimCommand p k = some (f, t))
    (hb : body f t = .answer u st pl) :
    controlCommand p k body s = .next (u.deliverResponse p ⟨f.kind, f.tag, st, pl⟩) := by
  simp [controlCommand, h, hb]

end Sys2Proof.Machine
end

