-- ==== Sys2Proof/Laws/Changes.lean ====
section
/-! SUPPORT. What a change of a slot, a teardown and a transaction touch. -/

namespace Sys2Proof.Machine

theorem adopt_frame (s : State) (k : SlotIndex) (c : Change) :
    s.adopt k c = { s with
      freeList := (s.adopt k c).freeList, storeLowArmed := (s.adopt k c).storeLowArmed
      records := (s.adopt k c).records, slots := (s.adopt k c).slots } := by
  cases c with
  | commit r =>
    simp only [State.adopt, State.adoptCommit]
    split
    · rfl
    · split
      · rw [setGenState_frame]; rfl
      · rw [supersede_frame, setGenState_frame]; rfl
      · rfl
      · rfl
  | retire =>
    simp only [State.adopt, State.adoptRetire]
    split
    · rfl
    · rw [supersede_frame]; rfl
    · rfl
    · rfl

theorem applyOutcome_frame (s : State) (k : SlotIndex) (c : Change) (o : ProposalOutcome) :
    s.applyOutcome k c o = { s with
      freeList := (s.applyOutcome k c o).freeList, storeLowArmed := (s.applyOutcome k c o).storeLowArmed
      records := (s.applyOutcome k c o).records, slots := (s.applyOutcome k c o).slots } := by
  cases o with
  | adopted => exact adopt_frame s k c
  | pending => rfl
  | rejected | lapsed | withdrawn =>
    cases c with
    | commit r => exact freeRecord_frame s r
    | retire => rfl

theorem announceChange_frame (s : State) (k : SlotIndex) (m : PortSet) (n : GenNumber) :
    s.announceChange k m n = { s with ports := (s.announceChange k m n).ports } := deliverWhere_frame _ _ _

/-- The opening of a change touches the free list, the arm state, the records, the slots, the proposals and the
ports. -/
theorem openChange_frame (s : State) (k : SlotIndex) (c : Change) (p : Port) (n : Session) :
    (s.openChange k c p n).1 = { s with
      freeList := (s.openChange k c p n).1.freeList, storeLowArmed := (s.openChange k c p n).1.storeLowArmed
      records := (s.openChange k c p n).1.records, slots := (s.openChange k c p n).1.slots
      proposals := (s.openChange k c p n).1.proposals, ports := (s.openChange k c p n).1.ports } := by
  unfold State.openChange
  dsimp only
  split
  · split
    · rfl
    · rw [deliverWhere_frame]; rfl
  · rw [announceChange_frame, adopt_frame]

/-- A resolution touches what an opening does. -/
theorem resolve_frame (s : State) (e : ProposalIndex) (o : ProposalOutcome) :
    s.resolve e o = { s with
      freeList := (s.resolve e o).freeList, storeLowArmed := (s.resolve e o).storeLowArmed
      records := (s.resolve e o).records, slots := (s.resolve e o).slots
      proposals := (s.resolve e o).proposals, ports := (s.resolve e o).ports } := by
  unfold State.resolve
  split
  · rfl
  · dsimp only
    split
    · rw [announceChange_frame, deliverWhere_frame, applyOutcome_frame]; rfl
    all_goals rw [deliverWhere_frame, applyOutcome_frame]; rfl

/-- A teardown touches neither sessions nor ports (R122). -/
theorem teardown_frame (s : State) (p : Port) (n : Session) :
    s.teardown p n = { s with
      freeList := (s.teardown p n).freeList, storeLowArmed := (s.teardown p n).storeLowArmed
      records := (s.teardown p n).records, slots := (s.teardown p n).slots
      contexts := (s.teardown p n).contexts, proposals := (s.teardown p n).proposals
      leases := (s.teardown p n).leases } := by
  let P : State → Prop := fun t => t = { s with
    freeList := t.freeList, storeLowArmed := t.storeLowArmed, records := t.records, slots := t.slots
    contexts := t.contexts, proposals := t.proposals, leases := t.leases }
  show P (s.teardown p n)
  unfold State.teardown
  have h1 : P ((s.leasesOf p).foldl State.removeLease s) :=
    foldl_induction P _ _ s rfl (fun t e _ ht => by
      show State.removeLease t e = _
      rw [removeLease_frame]; rw [ht])
  have h2 : P ((((s.leasesOf p).foldl State.removeLease s).buildsOf p n).foldl State.discardBuild
      ((s.leasesOf p).foldl State.removeLease s)) :=
    foldl_induction P _ _ _ h1 (fun t h _ ht => by
      show State.discardBuild t h = _
      rw [discardBuild_frame]; rw [ht])
  dsimp only
  generalize ((((s.leasesOf p).foldl State.removeLease s).buildsOf p n).foldl State.discardBuild
    ((s.leasesOf p).foldl State.removeLease s)) = t at h2 ⊢
  rw [h2]

/-- A transaction row changes its own port at most. -/
theorem transaction_cases (p : Port) (kind : Byte) (bytes : List Byte) (c : Clocking) (s : State) :
    transaction p kind bytes c s = .next s
    ∨ ∃ x, (s.port p).transact s.isRunning kind bytes c = some x ∧ s.isEnabled p = true
        ∧ transaction p kind bytes c s = .next (s.setPort p x) := by
  unfold transaction
  split
  · exact .inl rfl
  · rename_i h
    split
    · exact .inl rfl
    · rename_i x hx
      exact .inr ⟨x, hx, by simpa using h, rfl⟩

end Sys2Proof.Machine
end

