-- ==== Sys2Proof/Laws/Memory.lean ====
section
/-! SUPPORT. The Point Store: every memory operation keeps the canonical form, and a read sees the latest write. -/

namespace Sys2Proof.Machine

/-! ## Canonical form -/

theorem Memory.wf_nil : Memory.wf [] := by simp [Memory.wf]

theorem Memory.wf_tail {c : Host.Cell} {m : Memory} (h : Memory.wf (c :: m)) : Memory.wf m :=
  ⟨h.1.of_cons, fun d hd => h.2 d (List.mem_cons_of_mem _ hd)⟩

theorem Memory.wf_cons {c : Host.Cell} {m : Memory} :
    Memory.wf (c :: m) ↔ (∀ d ∈ m, c.1 < d.1) ∧ c.2 ≠ unwrittenByte ∧ Memory.wf m := by
  simp only [Memory.wf, List.pairwise_cons, List.forall_mem_cons]
  tauto

/-- A write brings no address but its own. -/
theorem mem_writeByte_address {m : Memory} {a : Nat} {b : Byte} {c : Host.Cell} (h : c ∈ writeByte m a b) :
    c.1 = a ∨ c ∈ m := by
  induction m with
  | nil => simp only [writeByte] at h; split at h <;> simp_all
  | cons d m ih =>
    simp only [writeByte] at h
    split at h
    · split at h
      · exact .inr h
      · rcases List.mem_cons.1 h with rfl | h
        · exact .inl rfl
        · exact .inr h
    · split at h
      · split at h
        · exact .inr (List.mem_cons_of_mem _ h)
        · rcases List.mem_cons.1 h with rfl | h
          · exact .inl rfl
          · exact .inr (List.mem_cons_of_mem _ h)
      · rcases List.mem_cons.1 h with h | h
        · simp [h]
        · rcases ih h with h | h <;> simp [h]

/-- A write keeps the canonical form. -/
theorem writeByte_wf {m : Memory} (h : Memory.wf m) (a : Nat) (b : Byte) : Memory.wf (writeByte m a b) := by
  induction m with
  | nil =>
    simp only [writeByte]
    split
    · exact Memory.wf_nil
    · simp_all [Memory.wf]
  | cons d m ih =>
    obtain ⟨hlt, hne, hm⟩ := Memory.wf_cons.1 h
    simp only [writeByte]
    split
    · rename_i had
      split
      · exact h
      · rename_i hb
        refine Memory.wf_cons.2 ⟨?_, hb, h⟩
        intro c hc
        rcases List.mem_cons.1 hc with rfl | hc
        · exact had
        · exact Nat.lt_trans had (hlt c hc)
    · split
      · rename_i had
        split
        · exact hm
        · rename_i hb
          exact Memory.wf_cons.2 ⟨fun c hc => by simpa [had] using hlt c hc, hb, hm⟩
      · rename_i h1 h2
        refine Memory.wf_cons.2 ⟨fun c hc => ?_, hne, ih hm⟩
        rcases mem_writeByte_address hc with hc | hc
        · omega
        · exact hlt c hc

theorem writePoint_wf {m : Memory} (h : Memory.wf m) (a : Nat) (p : Point) : Memory.wf (writePoint m a p) :=
  writeByte_wf (writeByte_wf (writeByte_wf (writeByte_wf h _ _) _ _) _ _) _ _

theorem writeRun_wf {blocks : List BlockIndex} {m m' : Memory} {i : Nat} {ps : List Point} (h : Memory.wf m)
    (hw : writeRun blocks m i ps = some m') : Memory.wf m' := by
  induction ps generalizing m i with
  | nil => simp only [writeRun, Option.some.injEq] at hw; exact hw ▸ h
  | cons p ps ih =>
    simp only [writeRun] at hw
    split at hw
    · exact ih (writePoint_wf h _ _) hw
    · simp at hw

theorem reset_store_wf : Memory.wf State.reset.store := Memory.wf_nil

/-! ## Read after write -/

/-- Below the first address nothing is listed. -/
theorem readByte_below {m : Memory} (h : Memory.wf m) {a : Nat} (ha : ∀ c ∈ m, a < c.1) :
    readByte m a = unwrittenByte := by
  induction m with
  | nil => rfl
  | cons d m ih =>
    have := ha d (List.mem_cons_self ..)
    rw [readByte, if_neg (by omega)]
    exact ih (Memory.wf_tail h) (fun c hc => ha c (List.mem_cons_of_mem _ hc))

/-- The byte just written reads back. -/
theorem readByte_writeByte_same {m : Memory} (h : Memory.wf m) (a : Nat) (b : Byte) :
    readByte (writeByte m a b) a = b := by
  induction m with
  | nil => simp only [writeByte]; split <;> simp_all [readByte]
  | cons d m ih =>
    obtain ⟨hlt, -, hm⟩ := Memory.wf_cons.1 h
    simp only [writeByte]
    split
    · rename_i had
      split
      · rename_i hb
        rw [hb]
        exact readByte_below h (fun c hc => by
          rcases List.mem_cons.1 hc with rfl | hc
          · exact had
          · exact Nat.lt_trans had (hlt c hc))
      · simp [readByte]
    · split
      · rename_i had
        split
        · rename_i hb
          rw [hb]
          exact readByte_below hm (fun c hc => by simpa [had] using hlt c hc)
        · simp [readByte]
      · rename_i h1 h2
        rw [readByte, if_neg (Ne.symm h2)]
        exact ih hm

/-- A write leaves every other address alone. No canonical form is needed. -/
theorem readByte_writeByte_ne (m : Memory) {a a' : Nat} (b : Byte) (hne : a' ≠ a) :
    readByte (writeByte m a b) a' = readByte m a' := by
  induction m with
  | nil => simp only [writeByte]; split <;> simp [readByte, hne.symm]
  | cons d m ih =>
    simp only [writeByte]
    split
    · split
      · rfl
      · simp [readByte, hne.symm]
    · split
      · rename_i had
        split
        · simp [readByte, ← had, hne.symm]
        · simp [readByte, ← had, hne.symm]
      · simp only [readByte]
        split
        · rfl
        · exact ih

/-! ## Words and points -/

@[simp] theorem wordOf_highByte_lowByte (w : Word) : wordOf (highByte w) (lowByte w) = w := by
  apply BitVec.eq_of_getLsbD_eq
  intro i hi
  simp only [wordOf, highByte, lowByte, BitVec.getLsbD_append, BitVec.getLsbD_setWidth, BitVec.getLsbD_ushiftRight]
  by_cases h : i < 8
  · simp [h]
  · have : i - 8 < 8 := by omega
    simp [h, this]
    congr 1; omega

@[simp] theorem highByte_wordOf (hi lo : Byte) : highByte (wordOf hi lo) = hi := by
  apply BitVec.eq_of_getLsbD_eq
  intro i h
  simp only [wordOf, highByte, BitVec.getLsbD_setWidth, BitVec.getLsbD_ushiftRight, BitVec.getLsbD_append]
  simp [h]

@[simp] theorem lowByte_wordOf (hi lo : Byte) : lowByte (wordOf hi lo) = lo := by
  apply BitVec.eq_of_getLsbD_eq
  intro i h
  simp only [wordOf, lowByte, BitVec.getLsbD_setWidth, BitVec.getLsbD_append]
  simp [h]

@[simp] theorem wordsOf_flatMap_wordBytes (ws : List Word) : wordsOf (ws.flatMap wordBytes) = some ws := by
  induction ws with
  | nil => rfl
  | cons w ws ih => simp [wordBytes, wordsOf, ih]

@[simp] theorem pointsOf_flatMap_bytes (ps : List Point) : pointsOf (ps.flatMap Point.bytes) = some ps := by
  induction ps with
  | nil => rfl
  | cons p ps ih => simp [Point.bytes, wordBytes, pointsOf, ih]

/-- A point just stored reads back (R2, R16). -/
theorem readPoint_writePoint_same {m : Memory} (h : Memory.wf m) (a : Nat) (p : Point) :
    readPoint (writePoint m a p) a = p := by
  have h1 := writeByte_wf h a (highByte p.x)
  have h2 := writeByte_wf h1 (a + 1) (lowByte p.x)
  have h3 := writeByte_wf h2 (a + 2) (highByte p.y)
  simp only [readPoint, writePoint]
  rw [readByte_writeByte_same h3, readByte_writeByte_ne _ (a' := a + 2) _ (by omega), readByte_writeByte_same h2,
    readByte_writeByte_ne _ (a' := a + 1) _ (by omega), readByte_writeByte_ne _ (a' := a + 1) _ (by omega),
    readByte_writeByte_same h1, readByte_writeByte_ne _ (a' := a) _ (by omega),
    readByte_writeByte_ne _ (a' := a) _ (by omega), readByte_writeByte_ne _ (a' := a) _ (by omega),
    readByte_writeByte_same h]
  simp

/-- A stored point leaves every byte outside its four alone. -/
theorem readByte_writePoint_outside (m : Memory) {a a' : Nat} (p : Point) (h : ¬(a ≤ a' ∧ a' < a + 4)) :
    readByte (writePoint m a p) a' = readByte m a' := by
  simp only [writePoint]
  rw [readByte_writeByte_ne _ _ (by omega), readByte_writeByte_ne _ _ (by omega),
    readByte_writeByte_ne _ _ (by omega), readByte_writeByte_ne _ _ (by omega)]

/-- Where a point of a generation stands: within the block that R2 names. -/
theorem locate_eq_some {blocks : List BlockIndex} {i a : Nat} :
    locate blocks i = some a ↔ ∃ b, blocks[i / 16]? = some b ∧ a = (b.val * 16 + i % 16) * 4 := by
  simp only [locate, pointAddress, Config.pointsPerBlock, Config.bytesPerPoint, Option.map_eq_some_iff]
  exact exists_congr fun b => and_congr_right fun _ => eq_comm

end Sys2Proof.Machine
end

