-- ==== Sys2Proof/Laws/Resets.lean ====
section
/-! SUPPORT. What the resets and start-ups do to each port, the order in which the arbiters consider the ports, and what
the claims of a lane touch. -/

namespace Sys2Proof.Machine

/-! ## A transaction discarded -/

/-- What a discard does to a port: no byte follows until CSN rises, and a byte in progress that is not 0x00 becomes the
next free value (R157, R161; log 7). -/
theorem discardTxn_eq (p : Port) (x : PortState) :
    x.discardTxn p = { x with
      txn := x.txn.map (fun t => { t with
        phase := .rest
        out := t.out.map (fun b => if t.phase = .rest ∨ b = 0x00 then b else Config.cutByte p.val x.cuts) })
      cuts := if x.txn.any (fun t => decide (t.phase ≠ .rest) && t.out.any (fun b => b != 0x00)) then x.cuts + 1
        else x.cuts } := by
  have h : Txn.discarded (Config.cutByte p.val x.cuts) = fun t : Txn => { t with
      phase := .rest
      out := t.out.map (fun b => if t.phase = .rest ∨ b = 0x00 then b else Config.cutByte p.val x.cuts) } := by
    funext ⟨k, phase, out⟩
    cases out with
    | none => simp [Txn.discarded, Txn.cutShort]
    | some b => by_cases hp : phase = .rest <;> by_cases hb : b = 0#8 <;> simp [Txn.discarded, Txn.cutShort, hp, hb]
  unfold PortState.discardTxn
  rw [h]
  rfl

/-! ## Every port changed alike -/

theorem eachPort_frame (s : State) (f : Port → PortState → PortState) :
    s.eachPort f = { s with ports := (s.eachPort f).ports } := rfl

theorem eachPort_port (s : State) (f : Port → PortState → PortState) (p : Port) :
    (s.eachPort f).port p = f p (s.port p) := by
  have h : s.eachPort f = (((s.updPort 0 (f 0)).updPort 1 (f 1)).updPort 2 (f 2)).updPort 3 (f 3) := rfl
  have ne : ∀ (t : State) (q : Port), q ≠ p → (t.updPort q (f q)).port p = t.port p :=
    fun t q hq => State.port_setPort_ne _ _ hq.symm
  have self : ∀ t : State, (t.updPort p (f p)).port p = f p (t.port p) := fun t => State.port_setPort_self ..
  rw [h]
  match p with
  | 0 => rw [ne _ 3 (by decide), ne _ 2 (by decide), ne _ 1 (by decide), self]
  | 1 => rw [ne _ 3 (by decide), ne _ 2 (by decide), self, ne _ 0 (by decide)]
  | 2 => rw [ne _ 3 (by decide), self, ne _ 1 (by decide), ne _ 0 (by decide)]
  | 3 => rw [self, ne _ 2 (by decide), ne _ 1 (by decide), ne _ 0 (by decide)]

theorem enterReset_port (s : State) (x : Phase) (p : Port) :
    (s.enterReset x).port p = PortState.deviceReset p (s.port p) := by
  simpa only [State.enterReset, State.port] using eachPort_port s PortState.deviceReset p

theorem enterReset_frame (s : State) (x : Phase) :
    s.enterReset x =
      { s with ports := (s.enterReset x).ports, ready := false, lanes := Vector.replicate 2 none, burn := none,
               requests := [], phase := x } := by
  have h := eachPort_frame s PortState.deviceReset
  unfold State.enterReset
  generalize s.eachPort PortState.deviceReset = t at *
  rw [h]

theorem startCommon_port (s : State) (p : Port) :
    s.startCommon.port p = PortState.started (s.isEnabled p) (s.port p) := by
  simpa only [State.startCommon, State.port] using eachPort_port s (fun p => PortState.started (s.isEnabled p)) p

/-- A port after a warm start-up (R179, Table 82). -/
theorem warmStart_port (s : State) (p : Port) :
    s.warmStart.port p = PortState.started (s.isEnabled p) (s.port p) := by
  have h := startCommon_port s p
  unfold State.warmStart
  generalize s.startCommon = t at *
  simpa only [State.port] using h

/-- The loading of the shadow touches the shadow and the ports it disables (R177). -/
theorem loadOptions_frame (s : State) :
    s.loadOptions = { s with ports := s.loadOptions.ports, shadow := some s.loadShadow } := rfl

theorem loadOptions_port (s : State) (p : Port) :
    s.loadOptions.port p = PortState.roled (PortSet.has s.loadShadow.portEnable p) (s.port p) :=
  eachPort_port { s with shadow := some s.loadShadow } _ p

/-- A tick touches the time, and in a cold start-up what the loading of the shadow touches (R136, R177). -/
theorem tick_cases (s : State) :
    s.tick = s ∨ s.tick = { s with time := s.time + 1 }
      ∨ (s.phase = .startUp .cold ∧ s.tick = { s.loadOptions with time := s.time + 1 }) := by
  unfold State.tick
  cases h : s.phase with
  | running => cases s.overdue <;> simp
  | inReset k => exact .inl rfl
  | startUp k =>
    cases k with
    | cold => exact .inr (.inr ⟨rfl, rfl⟩)
    | warm => exact .inr (.inl rfl)

/-- A port reset touches its port and, when the port shows ATTACHED, the teardown requests (R157). -/
theorem resetPort_frame (s : State) (p : Port) :
    s.resetPort p = { s with ports := (s.resetPort p).ports,
                             requests := if (s.port p).attached then s.requests ++ [p] else s.requests } := by
  unfold State.resetPort
  cases (s.port p).attached <;> rfl

/-! ## The order of an arbiter -/

/-- The first port from the pointer that satisfies a test. -/
theorem find?_portsFrom_eq_some {ptr p : Port} {f : Port → Bool} :
    (portsFrom ptr).find? f = some p ↔
      ∃ i : Fin 4, p = ptr + i ∧ f p = true ∧ ∀ j : Fin 4, j < i → f (ptr + j) = false := by
  have order : ∀ q : Port, portsFrom q = (List.finRange 4).map (fun i => q + i) := by decide
  rw [order ptr, List.find?_map, Option.map_eq_some_iff]
  constructor
  · rintro ⟨i, hi, rfl⟩
    obtain ⟨h, hj⟩ := find?_finRange_eq_some.mp hi
    exact ⟨i, rfl, h, hj⟩
  · rintro ⟨i, rfl, h, hj⟩
    exact ⟨i, find?_finRange_eq_some.mpr ⟨h, hj⟩, rfl⟩

/-! ## Lanes -/

/-- A grant (R23): the head command of the chosen port stands on the lowest IDLE lane. -/
theorem grantLane_cases {s t : State} {l : LaneIndex} (h : s.grantLane = some (l, t)) :
    ∃ p f rest, s.idleLane = some l ∧ s.laneChoice = some p ∧ (s.port p).cmdQueue = f :: rest
      ∧ t = { (s.setPort p { s.port p with cmdQueue := rest, inExec := some ⟨f, false⟩ }).setLane l
                (some (LaneWork.ofFrame p f)) with lanePtr := p + 1 } := by
  unfold State.grantLane at h
  split at h
  · rename_i l' p hl hp
    split at h
    · rename_i f rest hq
      simp only [Option.some.injEq, Prod.mk.injEq] at h
      obtain ⟨rfl, rfl⟩ := h
      refine ⟨p, f, rest, hl, hp, hq, ?_⟩
      simp only [State.passHead, State.updPort, hq]
    · cases h
  · cases h

/-- A capture claim taken either takes one reference or answers its port, and touches its lane. -/
theorem takeCapture_cases (s : State) (l : LaneIndex) (w : LaneWork) :
    (∃ r stale, s.captureChecks w = .ok (r, stale)
        ∧ s.takeCapture l w = (s.raiseReference r).setLane l
            (some { w with capture := some { record := r, stale := stale, results := [] } }))
      ∨ ∃ st, s.captureChecks w = .error st
        ∧ s.takeCapture l w = (s.deliverResponse w.port ⟨w.frame.kind, w.frame.tag, st, []⟩).setLane l none := by
  unfold State.takeCapture
  split
  · rename_i r stale h
    exact .inl ⟨r, stale, h, rfl⟩
  · rename_i st h
    exact .inr ⟨st, h, rfl⟩

/-- A completed lookup: the reference is dropped, the response delivered, and the lane IDLE (R38). -/
theorem takeRelease_cases (s : State) (l : LaneIndex) (w : LaneWork) (c : Capture) :
    (∃ c', s.evaluateLane w c = some c' ∧ c'.record = c.record ∧ s.takeRelease l w c = .next (s.completeLookup l w c'))
      ∨ (s.evaluateLane w c = none ∧ s.takeRelease l w c = .fault .pointNotLocated) := by
  unfold State.takeRelease
  cases h : s.evaluateLane w c with
  | none => exact .inr ⟨rfl, rfl⟩
  | some c' =>
    refine .inl ⟨c', rfl, ?_, rfl⟩
    unfold State.evaluateLane at h
    split at h
    · cases h
    · split at h
      · cases h
      · split at h
        · cases h
        · simp only [Option.some.injEq] at h
          rw [← h]

end Sys2Proof.Machine
end

