-- ==== Sys2Proof/Tests/Slice0.lean ====
section
/-! SUPPORT. Small tests, each about one step or one computation, with expected results taken from the spec's worked
examples and tables or worked out by hand, and a witness for the hypotheses of each statement. -/

namespace Sys2Proof.Machine.Tests

set_option Elab.async false

/-! ## Well-formedness: each check refuses an ill-formed term -/

theorem test_wf_post_ok : (Instr.post 0 [0x13, 0x01, 0x00] .closed).wellFormed = true := by decide
theorem test_wf_post_bytes_before_kind : (Instr.post 0 [0x13] .selected).wellFormed = false := by decide
theorem test_wf_fetch_bytes_inside_kind : (Instr.fetch 0 1 .insideKind).wellFormed = false := by decide
theorem test_wf_fetch_bytes_when_abandoned : (Instr.fetch 0 1 .abandoned).wellFormed = false := by decide
theorem test_wf_fetch_bytes_before_kind : (Instr.fetch 0 1 .selected).wellFormed = false := by decide
theorem test_wf_refetch_bytes_before_kind : (Instr.refetch 0 1 .selected).wellFormed = false := by decide
theorem test_wf_drain_bytes_before_kind : (Instr.drain 0 1 .selected).wellFormed = false := by decide
theorem test_wf_status_bytes_before_kind : (Instr.status 0 1 .selected).wellFormed = false := by decide
theorem test_wf_unknown_bytes_before_kind : (Instr.unknownTransactionKind 0 9 1 .selected).wellFormed = false := by
  decide
theorem test_wf_unknown_kind_ok : (Instr.unknownTransactionKind 0 0x06 2 .closed).wellFormed = true := by decide
theorem test_wf_unknown_kind_is_post : (Instr.unknownTransactionKind 0 0x01 0 .closed).wellFormed = false := by decide
theorem test_wf_unknown_kind_is_status : (Instr.unknownTransactionKind 0 0x05 0 .closed).wellFormed = false := by decide
/-- The table gives no row bits, so no word spells a command (log 18). -/
theorem test_no_word_spells_a_command : decodeTableWord 16 0x0101 = none := by decide

/-! ## Checks and codes (R183, Tables 95 and 96) -/

/-- The bytes 0x31 to 0x39, the check string of R183. -/
def checkString : List Byte := [0x31, 0x32, 0x33, 0x34, 0x35, 0x36, 0x37, 0x38, 0x39]
theorem test_crc8_of_one_bit : crc8 [0x01] = 0x07 := by decide
theorem test_crc8_check_value : crc8 checkString = 0xF4 := by decide +kernel
theorem test_crc16_check_value : crc16 checkString = 0x29B1 := by decide +kernel
theorem test_kind_codes_read_back : CommandKind.all.all (fun k => CommandKind.ofCode k.code == some k) = true := by
  decide +kernel
theorem test_fuse_codes_read_back : FuseField.all.all (fun f => FuseField.ofCode f.code == some f) = true := by
  decide +kernel

/-! ## Arithmetic (Tables 28, 29, 30, 34, 35) -/

/-- A point from two integers. -/
def pt (x y : Int) : Point := ⟨BitVec.ofInt 16 x, BitVec.ofInt 16 y⟩
/-- Value of an input on a LINEAR table, and whether it is above the range and saturated. -/
def linear (e : Extrapolation) (ps : List (Int × Int)) (x : Int) : Int × Bool × Bool :=
  let r := evaluateInput .linear e false (ps.map (fun q => pt q.1 q.2)) (BitVec.ofInt 16 x)
  (r.value.toInt, r.flags.above, r.flags.saturated)

/-- Table 28. -/
theorem test_rounding_rising : ([1, 2, 3].map (fun x => (linear .clamp [(0, 0), (4, 3)] x).1)) = [1, 2, 2] := by
  decide +kernel
/-- Table 28. -/
theorem test_rounding_falling : ([1, 2, 3].map (fun x => (linear .clamp [(0, 0), (4, -3)] x).1)) = [-1, -2, -2] := by
  decide +kernel
/-- Table 29. -/
theorem test_extend_saturates :
    ([32001, 32002, 32767].map (linear .extend [(32000, 32000), (32001, 32767)]))
      = [(32767, false, false), (32767, true, true), (32767, true, true)] := by decide +kernel
/-- Table 30. -/
theorem test_extend_rounds :
    ([2001, 2005, 32767].map (linear .extend [(1000, 1600), (2000, 2200)]))
      = [(2201, true, false), (2203, true, false), (20660, true, false)] := by decide +kernel
/-- Table 34. -/
theorem test_batch_of_number_8 :
    ([50, 250, 1200].map (linear .clamp [(0, 0), (100, 1000), (200, 1500), (400, 1600), (1000, 1600)]))
      = [(500, false, false), (1525, false, false), (1600, true, false)] := by decide +kernel
/-- Table 35. -/
theorem test_batch_of_number_9 :
    ([250, 1200].map (linear .extend [(0, 0), (100, 1100), (300, 1700), (1000, 1750)]))
      = [(1550, false, false), (1764, true, false)] := by decide +kernel

/-! ## A small world

P0, P1 and P2 are ATTACHED under sessions 3, 7 and 4. Slot 5 is LIVE on record 0 with three points, leased by P0. Slot 6
is DEFINED, with P0's build on handle 0 of record 1. Slot 7 is LIVE on record 2, with P0's COMMIT of record 3 open for
P1 and P2. Slot 8 is RETIRING, its record 4 leased by P1. Slot 9 is DEFINED without approvers. -/

/-- The world's points, three of record 0, two each of the others. -/
def worldPoints : List Point := [pt 0 0, pt 100 1000, pt 200 1500]
/-- A definition that every port reads and builds. -/
def openTo (approvers : PortSet) : TableDef :=
  { readers := 0xF, builders := 0xF, approvers := approvers, definer := 0 }
/-- A record of slot `k` in state `x`. -/
def recordOf (k : SlotIndex) (n : GenNumber) (x : GenState) (count : Nat) (blocks : List BlockIndex) (refs : Nat) :
    GenRecord :=
  { slot := k, number := n, state := x, interpolation := .linear, extrapolation := .clamp, pointCount := count,
    blocks := blocks, refCount := refs }
/-- A slot record. -/
def slotRecordOf (x : SlotState) (next : GenNumber) (b : Option Handle) (q : Option ProposalIndex) : SlotRecord :=
  { state := x, nextNumber := next, build := b, proposal := q, fixedLatch := false }
/-- A port ATTACHED under a session. -/
def attachedAs (s : State) (p : Port) (n : Session) : State :=
  s.setSession p { state := .attached n, last := n, teardownPending := false }
/-- The world's store: the points of record 0 in block 0, of the others in blocks 1, 3, 4 and 5. -/
def worldStore : Memory :=
  let run := fun (m : Memory) (b : BlockIndex) (ps : List Point) => (writeRun [b] m 0 ps).getD m
  run (run (run (run (run [] 0 worldPoints) 1 (worldPoints.take 2)) 3 (worldPoints.take 2)) 4 (worldPoints.take 2)) 5
    (worldPoints.take 2)

/-- The small world. -/
def world : State :=
  let s := attachedAs (attachedAs (attachedAs State.reset 0 3) 1 7) 2 4
  let s := { s with freeList := (List.finRange 512).drop 6, store := worldStore, time := 1000 }
  let s := ((((s.setRecord 0 (some (recordOf 5 8 (.current 0x1111) 3 [0] 1))).setRecord 1
    (some (recordOf 6 1 (.building 20 2000) 2 [1, 2] 0))).setRecord 2 (some (recordOf 7 4 (.current 0x2222) 2 [3] 0))).setRecord 3
    (some (recordOf 7 5 (.pending 0x3333) 2 [4] 0))).setRecord 4 (some (recordOf 8 2 (.superseded 0x4444) 2 [5] 1))
  let s := ((((s.setSlot 5 (slotRecordOf (.live (openTo 0x2) 0) 9 none none)).setSlot 6
    (slotRecordOf (.defined (openTo 0x0)) 2 (some 0) none)).setSlot 7
    (slotRecordOf (.live (openTo 0x6) 2) 6 none (some 0))).setSlot 8
    (slotRecordOf (.retiring (openTo 0x0)) 3 none none)).setSlot 9 (slotRecordOf (.defined (openTo 0x0)) 1 none none)
  let s := s.setContext 0 (some ⟨6, 1, 0, 3⟩)
  let s := s.setProposal 0 (some
    { slot := 7, change := .commit 3, proposer := 0, session := 3, proposerEnded := false, approvers := 0x6,
      approvals := Vector.replicate 4 none, deadline := 1500 })
  (s.setLease 0 (some ⟨0, 3, 5, 0, 3000⟩)).setLease 1 (some ⟨1, 7, 8, 4, 3000⟩)

/-- A state with one command waiting at a port, its tag 0x33. -/
def queued (s : State) (p : Port) (k : CommandKind) (payload : List Byte) : State :=
  s.setPort p { s.port p with cmdQueue := [⟨k, 0x33, payload⟩] }

/-- What a test looks at in the next state. -/
def look {α : Type} (o : Host.Outcome State Fault Refusal) (f : State → α) : Option α :=
  match o with
  | .next s => some (f s)
  | .fault _ | .refused _ => none

/-- The status and payload of the only response waiting at a port. -/
def answered (p : Port) (s : State) : Option (Status × List Byte) :=
  match (s.port p).respQueue with
  | [r] => some (r.status, r.payload)
  | _ => none

theorem test_world_laws_count :
    world.leasesNaming 0 = 1 ∧ world.leasesNaming 4 = 1 ∧ world.freeList.length = 506 := by decide +kernel
theorem test_world_store_canonical : Memory.wf worldStore := by decide +kernel

/-! ## One step of each row -/

/-- A command that is the only one waiting, carried out; its answer. -/
def answer (s : State) (p : Port) (k : CommandKind) (payload : List Byte) (c : Instr) : Option (Status × List Byte) :=
  (look (exec c (queued s p k payload)) (answered p)).join

/-- P3's first session is number 1; limits are the defaults of Table 91: 8, 2000, 500 and 1000. -/
theorem test_attach :
    answer world 3 .attach [] (.attach 3) = some (.ok, [1, 3, 8, 0x07, 0xD0, 0x01, 0xF4, 0x03, 0xE8]) := by
  decide +kernel
theorem test_attach_refused : answer world 0 .attach [] (.attach 0) = some (.alreadyAttached, []) := by decide +kernel
/-- P0 ends session 3 with one lease and one build; its lease's record 0 is CURRENT and stays. -/
theorem test_detach : answer world 0 .detach [] (.detach 0) = some (.ok, [3, 1, 1, 0]) := by decide +kernel
theorem test_detach_state :
    look (exec (.detach 0) (queued world 0 .detach [])) (fun t =>
      ((t.session 0).state, (t.lease 0).isNone, (t.context 0).isNone, (t.record 1).isNone, t.freeList.drop 506))
      = some (.detached, true, true, true, [1, 2]) := by decide +kernel
theorem test_define_table :
    answer world 0 .defineTable [10, 0x3, 0x1, 0x2] (.defineTable 0) = some (.ok, [10]) := by decide +kernel
theorem test_define_table_refused :
    answer world 0 .defineTable [5, 0x3, 0x1, 0x2] (.defineTable 0) = some (.slotState, []) := by decide +kernel
/-- Slot 5: LIVE, masks F F 2, definer P0, number 8, 3 points, LINEAR, CLAMP, no build, no proposal, lease 8. -/
theorem test_table_info_live :
    answer world 0 .tableInfo [5] (.tableInfo 0)
      = some (.ok, [2, 0xF, 0xF, 0x2, 0, 0, 8, 0, 3, 0, 0, 0, 0, 0, 0, 0, 0, 8, 0]) := by decide +kernel
theorem test_table_info_vacant :
    answer world 0 .tableInfo [10] (.tableInfo 0)
      = some (.ok, [0, 0, 0, 0, 0xFF, 0, 0, 0, 0, 0, 0, 0, 0, 0, 0, 0, 0, 0, 0]) := by decide +kernel
/-- Slot 9 has no approver, so its retire is adopted at once, and it holds no record. -/
theorem test_propose_retire_adopted :
    answer world 0 .proposeRetire [9] (.proposeRetire 0) = some (.ok, [1]) := by decide +kernel
theorem test_propose_retire_pending :
    look (exec (.proposeRetire 0) (queued world 0 .proposeRetire [5])) (fun t =>
      (answered 0 t, (t.slot 5).proposal, (t.port 1).events.length, (t.port 2).events.length))
      = some (some (.ok, [0]), some 1, 1, 0) := by decide +kernel
/-- 506 = 0x1FA free blocks, 123 records, 3 contexts, 7 proposal entries, 30 lease entries, armed. -/
theorem test_store_info : answer world 3 .storeInfo [] (.storeInfo 3) = some (.ok, [0x01, 0xFA, 123, 3, 7, 30, 1]) := by
  decide +kernel
/-- Points 1 and 2 of number 8: (100, 1000) and (200, 1500). -/
theorem test_read_points :
    answer world 1 .readPoints [5, 0, 0, 1, 2] (.readPoints 1)
      = some (.ok, [0, 8, 0, 3, 0x11, 0x11, 2, 0, 100, 0x03, 0xE8, 0, 200, 0x05, 0xDC]) := by decide +kernel
theorem test_read_points_beyond_count :
    answer world 1 .readPoints [5, 0, 0, 2, 2] (.readPoints 1) = some (.badArgument, []) := by decide +kernel
/-- Handle 1 is the lowest FREE one; slot 9's first number is 1; 40 points take blocks 6, 7 and 8. -/
theorem test_open_build :
    look (exec (.openBuild 0) (queued world 0 .openBuild [9, 0, 40, 0, 1])) (fun t =>
      (answered 0 t, (t.record 5).map (·.blocks), t.freeList.length)) = some (some (.ok, [1, 0, 1]), some [6, 7, 8], 503)
    := by decide +kernel
theorem test_open_build_refused :
    answer world 0 .openBuild [6, 0, 40, 0, 1] (.openBuild 0) = some (.buildOpen, []) := by decide +kernel
theorem test_append_points :
    answer world 0 .appendPoints [0, 1, 0, 101, 0xFF, 0xFF] (.appendPoints 0) = some (.ok, [0, 3]) := by decide +kernel
/-- x = 100 is not above the last x, which is 100; the idle deadline restarts at 1000 + 1000. -/
theorem test_append_points_refused :
    look (exec (.appendPoints 0) (queued world 0 .appendPoints [0, 1, 0, 100, 0, 0])) (fun t =>
      (answered 0 t, (t.record 1).map (·.state))) = some (some (.notMonotonic, []), some (.building 20 2000)) := by
  decide +kernel
/-- Slot 6 has no approver: adopted at once with number 1; one block is trimmed. -/
theorem test_close_build :
    look (exec (.closeBuild 0) (queued world 0 .closeBuild ([0] ++ wordBytes (checksumOf (worldPoints.take 2)))))
      (fun t => (answered 0 t, (t.slot 6).state.current, (t.record 1).map (·.blocks), t.freeList.drop 506))
      = some (some (.ok, [1, 0, 1]), some 1, some [1], [2]) := by decide +kernel
theorem test_close_build_refused :
    look (exec (.closeBuild 0) (queued world 0 .closeBuild [0, 0, 0])) (fun t => (answered 0 t, t.record 1, t.context 0))
      = some (some (.checksumMismatch, []), none, none) := by decide +kernel
theorem test_cancel_build : answer world 0 .cancelBuild [0] (.cancelBuild 0) = some (.ok, [0, 1]) := by decide +kernel
theorem test_cancel_build_refused : answer world 1 .cancelBuild [0] (.cancelBuild 1) = some (.buildUnknown, []) := by
  decide +kernel
/-- P1 approves number 5; P2 is still outstanding. -/
theorem test_approve : answer world 1 .approve [7, 0, 5] (.approve 1) = some (.ok, [0, 1]) := by decide +kernel
theorem test_approve_refused : answer world 1 .approve [7, 0, 4] (.approve 1) = some (.staleProposal, []) := by
  decide +kernel
theorem test_veto :
    look (exec (.veto 1) (queued world 1 .veto [7, 0, 5])) (fun t =>
      (answered 1 t, t.record 3, (t.slot 7).proposal, t.freeList.drop 506)) = some (some (.ok, [2]), none, none, [4]) := by
  decide +kernel
theorem test_withdraw : answer world 0 .withdraw [7] (.withdraw 0) = some (.ok, [4, 0, 5]) := by decide +kernel
/-- P0 ATTACHED again under session 3, its number once more, after the session that proposed has ended. -/
def cameRound : State := attachedAs ((look (exec (.detach 0) (queued world 0 .detach [])) id).getD world) 0 3
/-- The number has come round: WITHDRAW is refused, and P0, not in the captured set, is not told of the veto (R99, R117). -/
theorem test_withdraw_came_round :
    ((look (exec (.withdraw 0) (queued (cameRound.setPort 0 (world.port 0)) 0 .withdraw [7])) (answered 0)).join,
      look (exec (.veto 1) (queued cameRound 1 .veto [7, 0, 5])) (fun t => ((t.port 0).events, (t.port 1).events.length)))
      = (some (.notProposer, []), some ([], 1)) := by decide +kernel
theorem test_withdraw_refused : answer world 1 .withdraw [7] (.withdraw 1) = some (.notProposer, []) := by decide +kernel
theorem test_hold :
    look (exec (.hold 1) (queued world 1 .hold [5])) (fun t =>
      (answered 1 t, (t.record 0).map (·.refCount), (t.lease 2).map (·.expiry))) = some (some (.ok, [0, 8]), some 2, some 3000)
    := by decide +kernel
theorem test_hold_refused : answer world 0 .hold [5] (.hold 0) = some (.leaseHeld, []) := by decide +kernel
theorem test_renew : answer world 1 .renew [8] (.renew 1) = some (.ok, [0, 2, 0]) := by decide +kernel
/-- The last reference on the last record of the RETIRING slot 8: the record is freed and the slot is VACANT. -/
theorem test_release :
    look (exec (.release 1) (queued world 1 .release [8])) (fun t =>
      (answered 1 t, t.record 4, (t.slot 8).state, t.freeList.drop 506)) = some (some (.ok, [0, 2]), none, .vacant, [5]) := by
  decide +kernel
/-- x = 150 on slot 5: 1000 + 250 = 1250 by CLAMP and LINEAR, number 8, no flag. -/
theorem test_lookup :
    answer world 1 .lookup [5, 0, 0, 150] (.lookup 1) = some (.ok, [0, 8, 0x04, 0xE2, 0]) := by decide +kernel
/-- x = 250 is ABOVE: 1500; x = 50: 500. -/
theorem test_lookup_batch :
    answer world 1 .lookupBatch [5, 0, 2, 0, 250, 0, 50] (.lookupBatch 1)
      = some (.ok, [0, 8, 2, 0x05, 0xDC, 0x02, 0x01, 0xF4, 0x00]) := by decide +kernel
theorem test_lane_grant :
    look (exec .laneGrant (queued world 1 .lookup [5, 0, 0, 150])) (fun t =>
      ((t.lane 0).map (·.port), (t.lane 1).isSome, t.lanePtr, (t.port 1).cmdQueue.length)) = some (some 1, false, 2, 0) := by
  decide +kernel

/-- P1's lookup on slot `k` granted to L0. -/
def granted (k : Byte) : State := (look (exec .laneGrant (queued world 1 .lookup [k, 0, 0, 150])) id).getD world
/-- P1 holds a lease on the SUPERSEDED record of the RETIRING slot 8. -/
theorem test_capture_claim :
    look (exec (.captureClaim 0) (granted 8)) (fun t =>
      ((t.lane 0).bind (·.capture), (t.record 4).map (·.refCount))) = some (some ⟨4, true, []⟩, some 2) := by decide +kernel
theorem test_capture_claim_refused :
    look (exec (.captureClaim 0) (granted 9)) (fun t => (answered 1 t, t.lane 0)) = some (some (.notLive, []), none) := by
  decide +kernel
/-- Above the range of (0, 0), (100, 1000): 1000 with ABOVE and STALE; the count is 1 again. -/
theorem test_release_claim :
    look (exec (.releaseClaim 0) ((look (exec (.captureClaim 0) (granted 8)) id).getD world)) (fun t =>
      (answered 1 t, (t.record 4).map (·.refCount), t.lane 0))
      = some (some (.ok, [0, 2, 0x03, 0xE8, 0x12]), some 1, none) := by decide +kernel
theorem test_read_options :
    (answer world 3 .readOptions [] (.readOptions 3)).map (fun a => (a.2.length, a.2.take 15))
      = some (46, [0, 0, 0, 0, 0xF, 0, 0, 0, 0, 0xF, 0, 0, 0, 0x01, 0xF4]) := by decide +kernel
/-- LEASE_LIMIT to 4: the start marker is burned and the response waits for the end of the burn. -/
theorem test_program_option :
    look (exec (.programOption 0) (queued world 0 .programOption [6, 0, 4])) (fun t =>
      (answered 0 t, t.burn, t.fuseState .leaseLimit)) = some (none, some ⟨.leaseLimit, 4, 0⟩, .burning) := by decide +kernel
theorem test_program_option_refused :
    answer world 0 .programOption [6, 0, 33] (.programOption 0) = some (.badArgument, []) := by decide +kernel
theorem test_close_provisioning :
    look (exec (.closeProvisioning 0) (queued world 0 .closeProvisioning [])) (fun t => t.burn)
      = some (some ⟨.provisionClosed, 1, 0⟩) := by decide +kernel

/-- LEASE_LIMIT under burn for P0. -/
def burning : State :=
  (look (exec (.programOption 0) (queued world 0 .programOption [6, 0, 4])) id).getD world
theorem test_burn_completion :
    look (exec .burnCompletion burning) (fun t => (answered 0 t, t.burn, t.fuseState .leaseLimit, t.inUse.leaseLimit))
      = some (some (.ok, [6, 0, 4]), none, .programmed, 8) := by decide +kernel
/-- A reset in the middle of the burn leaves the field SPOILED (R176). -/
theorem test_reset_spoils_burn :
    look (exec .rstnAsserted burning) (fun t => (t.burn, t.fuseState .leaseLimit, t.ready))
      = some (none, .spoiled, false) := by decide +kernel
theorem test_teardown_request :
    look (exec (.teardownRequest 0) (world.presentRequest 0)) (fun t =>
      ((t.session 0).state, (t.session 0).teardownPending, t.requests, (t.port 0).attached))
      = some (.ending 3, true, [], false) := by decide +kernel

/-- P0 is ENDING. -/
def ending : State := (look (exec (.teardownRequest 0) (world.presentRequest 0)) id).getD world
theorem test_pending_teardown :
    look (exec (.pendingTeardown 0) ending) (fun t => ((t.session 0).state, t.lease 0, t.context 0, (t.record 0).map (·.refCount)))
      = some (.detached, none, none, some 0) := by decide +kernel
theorem test_build_idle_expiry :
    look (exec (.buildIdleExpiry 0) { world with time := 2000 }) (fun t =>
      (t.context 0, (t.port 0).events.map EventRecord.bytes)) = some (none, [[5, 6, 0, 1, 0, 0]]) := by decide +kernel
theorem test_build_idle_expiry_not_due : look (exec (.buildIdleExpiry 0) world) (fun t => t.context 0) = some (world.context 0) := by
  decide +kernel
/-- P0 proposed and P1 and P2 are in the captured set: each gets PROPOSAL_RESOLVED, LAPSED, number 5, proposer P0. -/
theorem test_proposal_expiry :
    look (exec (.proposalExpiry 0) { world with time := 1500 }) (fun t =>
      (t.proposal 0, (List.finRange 4).map (fun p => (t.port p).events.map EventRecord.bytes)))
      = some (none, [[[2, 7, 0, 5, 3, 0]], [[2, 7, 0, 5, 3, 0]], [[2, 7, 0, 5, 3, 0]], []]) := by decide +kernel
/-- The other deadlines, 1500 and 2000, are due as well; expiries may be taken in any order. -/
theorem test_lease_expiry :
    look (exec (.leaseExpiry 1) { world with time := 3000 }) (fun t =>
      (t.lease 1, (t.slot 8).state, (t.port 1).events.map EventRecord.bytes))
      = some (none, .vacant, [[4, 8, 0, 2, 0, 0]]) := by decide +kernel
/-- A STORE_INFO frame with tag 0x2A: free count 8 in the status byte, 0x00 for the frame, ACCEPTED. -/
theorem test_post :
    look (exec (.post 3 (postBytes 0x13 0x2A []) .closed) world) (fun t => ((t.port 3).sent, (t.port 3).cmdQueue))
      = some ([0x08, 0, 0, 0, 0, 0x00], [⟨.storeInfo, 0x2A, []⟩]) := by decide +kernel
theorem test_post_bad_crc :
    look (exec (.post 3 [0x13, 0x2A, 0, 0, 0] .closed) world) (fun t => ((t.port 3).sent, (t.port 3).cmdQueue))
      = some ([0x08, 0, 0, 0, 0, 0x02], []) := by decide +kernel

/-- P3 with one response waiting and two records in its event queue. -/
def waiting : State :=
  world.setPort 3 { world.port 3 with
    respQueue := [⟨.detach, 0x2A, .notAttached, []⟩], attn := true
    events := [⟨.generationChanged, 5, 9, .zero, none⟩, ⟨.storeLow, 0, 31, .zero, none⟩] }
theorem test_fetch :
    look (exec (.fetch 3 5 .closed) waiting) (fun t =>
      ((t.port 3).sent.take 5, (t.port 3).respQueue.length, (t.port 3).lastFetched.isSome, (t.port 3).attn))
      = some ([0x37, 0x02, 0x2A, 0x01, 0x00], 0, true, true) := by decide +kernel
theorem test_fetch_truncated :
    look (exec (.fetch 3 4 .closed) waiting) (fun t => ((t.port 3).respQueue.length, (t.port 3).lastFetched.isSome))
      = some (1, false) := by decide +kernel
theorem test_refetch_empty :
    look (exec (.refetch 3 3 .closed) waiting) (fun t => ((t.port 3).sent, (t.port 3).respQueue.length))
      = some ([0x37, 0, 0, 0], 1) := by decide +kernel
theorem test_drain :
    look (exec (.drain 3 15 .closed) waiting) (fun t => ((t.port 3).sent.take 15, (t.port 3).events, (t.port 3).attn))
      = some ([0x37, 2, 3, 5, 0, 9, 0, 0, 6, 0, 0, 31, 0, 0, 0], [], true) := by decide +kernel
/-- The first record has left when its sixth byte is out. -/
theorem test_drain_truncated :
    look (exec (.drain 3 7 .closed) waiting) (fun t => (t.port 3).events.length) = some 1 := by decide +kernel
theorem test_status :
    look (exec (.status 0 1 .closed) world) (fun t => (t.port 0).sent) = some [0x48, 0x00] := by decide +kernel
/-- A port just reset, with a command in execution and not attached (R181). -/
theorem test_status_after_port_reset :
    look (exec (.prstnAsserted 3 true) (queued world 3 .attach [])) (fun t => (t.port 3).statusByte) = some 0x87 := by
  decide +kernel
/-- CSN rises inside the kind byte: its bits are discarded, though the row is FETCH (R144). -/
theorem test_fetch_abandoned :
    look (exec (.fetch 3 0 .abandoned) ((look (exec (.fetch 3 0 .insideKind) waiting) id).getD world))
      (fun t => ((t.port 3).sent, (t.port 3).txn, (t.port 3).respQueue.length)) = some ([], none, 1) := by decide +kernel
theorem test_unknown_transaction_kind :
    look (exec (.unknownTransactionKind 3 0x06 2 .closed) world) (fun t => ((t.port 3).sent, (t.port 3).cmdQueue))
      = some ([0x08, 0, 0], []) := by decide +kernel
theorem test_prstn_asserted :
    look (exec (.prstnAsserted 0 true) (queued world 0 .attach [])) (fun t =>
      ((t.port 0).inExec, (t.port 0).resetting, t.requests)) = some (some ⟨⟨.attach, 0x33, []⟩, true⟩, true, [0]) := by
  decide +kernel
/-- A port reset inside a frame byte of a POST: the byte was 0x00 and stays so (R157, Table 79). -/
theorem test_cut_frame_byte :
    look (exec (.prstnAsserted 3 false) ((look (exec (.post 3 [0x13] .insideByte) world) id).getD world))
      (fun t => (t.port 3).txn) = some (some ⟨some 0x01, .rest, some 0x00⟩) := by decide +kernel
theorem test_prstn_released :
    look (exec (.prstnReleased 3) (world.setPort 3 { world.port 3 with prstnLow := true, resetting := true })) (fun t =>
      ((t.port 3).prstnLow, (t.port 3).resetting)) = some (false, false) := by decide +kernel
theorem test_rstn_asserted :
    look (exec .rstnAsserted world) (fun t => (t.phase, t.ready, t.rstnLow)) = some (.inReset .warm, false, true) := by
  decide +kernel

/-- RSTN has fallen. -/
def held : State := (look (exec .rstnAsserted world) id).getD world
/-- The cold start-up after power-on has begun. -/
def starting : State := (look (exec .powerOn world) id).getD world
/-- The warm start-up has begun. -/
def warming : State := (look (exec .rstnReleased held) id).getD world
/-- P3 is disabled by the fuse array from the next cold start-up on. -/
def disabling : State := starting.setFuse .portEnable { start := true, completion := true, cells := 0x7 }
/-- RSTN inside the status byte of a start-up: the byte was 0x00 and stays so (R161, R177). -/
theorem test_cut_start_up_status_byte :
    look (exec .rstnAsserted ((look (exec (.status 3 0 .insideKind) warming) id).getD world))
      (fun t => ((t.port 3).txn, (t.port 3).cuts)) = some (some ⟨none, .rest, some 0x00⟩, 0) := by decide +kernel
theorem test_rstn_released :
    look (exec .rstnReleased held) (fun t => (t.phase, t.rstnLow)) = some (.startUp .warm, false) := by decide +kernel
theorem test_power_on : look (exec .powerOn world) (fun t => (t.phase, t.shadow)) = some (.startUp .cold, none) := by
  decide +kernel
/-- The cold start-up after power-on, with a BLANK fuse array, gives the state after reset. -/
theorem test_cold_start_up :
    look (exec .coldStartUp ((look (exec .powerOn world) id).getD world)) (fun t => decide (t = State.reset)) = some true := by
  decide +kernel
/-- The CURRENT records 0 and 2 are kept, with blocks 0 and 3; slots 5 and 7 stay LIVE, slot 8 is VACANT. -/
theorem test_warm_start_up :
    look (exec .warmStartUp ((look (exec .rstnReleased held) id).getD world)) (fun t =>
      ((List.finRange 6).map (fun r => (t.record (r.castLE (by decide))).isSome), t.freeList.take 4, (t.slot 8).state,
        (t.session 0).last, (t.slot 7).state.current))
      = some ([true, false, true, false, false, false], [1, 2, 4, 5], .vacant, 3, some 2) := by decide +kernel
/-- With nothing waiting a step is one tick. -/
theorem test_tick : look (step world) (fun t => t.time) = some 1001 := by decide +kernel
/-- The time runs from 0 at the release of RSTN on, and READY rises at 1 ms if a tick comes between (R136). -/
theorem test_time_runs_in_start_up :
    (look (step warming) (fun t => t.time), look (exec .warmStartUp { warming with time := 1 }) (fun t => t.time))
      = (some 1, some 1) := by decide +kernel
/-- In a cold start-up the shadow is loaded before READY rises, and a port that it disables ignores its lines (R177). -/
theorem test_cold_start_up_loads :
    look (step disabling) (fun t => (t.shadow.map (·.portEnable), t.ready, t.isEnabled 3, t.phase))
      = some (some 0x7, false, false, .startUp .cold) := by decide +kernel

/-! ## Witnesses

For each statement with hypotheses, states and operands that meet them together: each clause, and the boundary values
of its ranges. `queued` changes nothing but the command queue of one port, so what is said of the other fields is said of
the state it is given. -/

theorem queued_changes_one_queue (s : State) (p : Port) (k : CommandKind) (payload : List Byte) :
    queued s p k payload = s.setPort p { s.port p with cmdQueue := [⟨k, 0x33, payload⟩] } := rfl

/-- The part carries out the command when it is the one waiting at the port. -/
def takes (s : State) (p : Port) (k : CommandKind) (payload : List Byte) : Bool :=
  ((queued s p k payload).claimCommand p k).any (fun x => x.1 == ⟨k, 0x33, payload⟩)

/-- What `takes` stands for in the hypotheses of the statements. -/
theorem takes_claims (s : State) (p : Port) (k : CommandKind) (payload : List Byte) (h : takes s p k payload = true) :
    ∃ f t, (queued s p k payload).claimCommand p k = some (f, t) ∧ f.payload = payload := by
  obtain ⟨⟨f, t⟩, hx, he⟩ := Option.any_eq_true _ _ |>.mp h
  exact ⟨f, t, hx, congrArg Frame.payload (beq_iff_eq.mp he)⟩

/-- P0's ATTACH passed into execution just before its port reset. -/
def carriedOver : State := (look (exec (.prstnAsserted 0 true) (queued world 0 .attach [])) id).getD world

theorem witness_EmptyQueueTicks :
    starting.pending = [] ∧ starting.phase = .startUp .cold ∧ starting.loadShadow.portEnable = 0xF
      ∧ disabling.phase = .startUp .cold ∧ disabling.loadShadow.portEnable = 0x7 ∧ warming.phase = .startUp .warm
      ∧ world.pending = [] ∧ world.phase = .running ∧ (∀ d ∈ world.deadlines, world.time ≤ d)
      ∧ (∀ d ∈ world.deadlines, ({ world with time := 1500 } : State).time ≤ d) ∧ 1500 ∈ world.deadlines
      ∧ (∃ d ∈ world.deadlines, d < ({ world with time := 1501 } : State).time)
      ∧ held.pending = [] ∧ held.phase = .inReset .warm := by decide +kernel

theorem witness_ControlArbiterChoice :
    world.controlPtr = 0 ∧ (queued world 0 .attach []).nextCommand 0 = some ⟨.attach, 0x33, []⟩
      ∧ (queued world 3 .attach []).nextCommand 3 = some ⟨.attach, 0x33, []⟩
      ∧ (queued (queued world 0 .attach []) 3 .attach []).nextCommand 3 = none
      ∧ (queued (world.presentRequest 1) 0 .attach []).nextCommand 0 = none
      ∧ (queued { world with time := 1500 } 0 .attach []).nextCommand 0 = some ⟨.attach, 0x33, []⟩
      ∧ (queued { world with time := 1501 } 0 .attach []).nextCommand 0 = none
      ∧ (queued ending 1 .attach []).nextCommand 1 = none ∧ (queued ending 1 .release [8]).nextCommand 1 = none
      ∧ (queued ending 1 .hold [5]).nextCommand 1 = none ∧ (queued ending 1 .tableInfo [7]).nextCommand 1 = none
      ∧ (queued ending 1 .tableInfo [6]).nextCommand 1 = some ⟨.tableInfo, 0x33, [6]⟩
      ∧ (queued ending 1 .proposeRetire [5]).nextCommand 1 = some ⟨.proposeRetire, 0x33, [5]⟩
      ∧ (queued ending 2 .proposeRetire [5]).nextCommand 2 = none
      ∧ (queued ending 1 .proposeRetire [9]).nextCommand 1 = none := by decide +kernel

theorem witness_CommandIsTakenFromItsPort :
    takes world 0 .attach [] = true
      ∧ carriedOver.carrying = some 0 ∧ (carriedOver.port 0).inExec = some ⟨⟨.attach, 0x33, []⟩, true⟩
      ∧ (carriedOver.claimCommand 0 .attach).map (·.1) = some ⟨.attach, 0x33, []⟩
      ∧ controlRow (.attach 0) = some (0, .attach) ∧ (world.claimCommand 0 .attach).isNone = true := by decide +kernel

/-- P1 is DETACHED with its lookup granted. -/
def detachedWithLookup : State := (granted 5).setSession 1 { state := .detached, last := 7, teardownPending := false }

theorem witness_SessionIsRequired :
    (world.session 3).state = .detached
      ∧ (∀ c k, (c, k) ∈ [(Instr.detach 3, CommandKind.detach), (.hold 3, .hold), (.programOption 3, .programOption)] →
          controlRow c = some (3, k) ∧ k ≠ .attach ∧ k ≠ .readOptions ∧ k ≠ .storeInfo)
      ∧ takes world 3 .detach [] = true ∧ takes world 3 .hold [5] = true
      ∧ takes world 3 .programOption [6, 0, 4] = true
      ∧ (detachedWithLookup.session 1).state = .detached ∧ detachedWithLookup.takesClaims = true
      ∧ (detachedWithLookup.lane 0).map (fun w => (w.port, w.capture.isNone)) = some (1, true) := by
  refine ⟨by decide +kernel, ?_, by decide +kernel⟩
  intro c k h
  simp only [List.mem_cons, Prod.mk.injEq, List.not_mem_nil, or_false] at h
  obtain ⟨rfl, rfl⟩ | ⟨rfl, rfl⟩ | ⟨rfl, rfl⟩ := h <;> decide

theorem witness_OutOfRangeFieldsAreBadArguments_slots :
    world.isAttached 0 = true
      ∧ takes world 0 .defineTable [64, 3, 1, 2] = true ∧ takes world 0 .tableInfo [64] = true
      ∧ takes world 0 .proposeRetire [255] = true ∧ takes world 0 .openBuild [64, 0, 2, 0, 0] = true
      ∧ takes world 0 .approve [64, 0, 5] = true ∧ takes world 0 .veto [64, 0, 5] = true
      ∧ takes world 0 .withdraw [64] = true ∧ takes world 0 .hold [64] = true ∧ takes world 0 .renew [64] = true
      ∧ takes world 0 .release [64] = true ∧ takes world 0 .readPoints [64, 0, 0, 0, 1] = true
      ∧ takes world 0 .appendPoints [4, 1, 0, 0, 0, 0] = true ∧ takes world 0 .closeBuild [4, 0, 0] = true
      ∧ takes world 0 .cancelBuild [255] = true := by decide +kernel

theorem witness_OutOfRangeFieldsAreBadArguments_fields :
    (takes world 0 .openBuild [9, 0, 1, 0, 0] = true ∧ [0, 1, 0, 0] = wordBytes 1 ++ [0, 0])
      ∧ (takes world 0 .openBuild [9, 0x04, 0x01, 0, 0] = true ∧ [0x04, 0x01, 0, 0] = wordBytes 1025 ++ [0, 0])
      ∧ takes world 0 .openBuild [9, 0, 2, 2, 0] = true ∧ takes world 0 .openBuild [9, 0, 2, 0, 3] = true
      ∧ takes world 0 .appendPoints (0 :: 0 :: [pt 1 1].flatMap Point.bytes) = true
      ∧ takes world 0 .appendPoints (0 :: 9 :: [pt 1 1].flatMap Point.bytes) = true
      ∧ takes world 0 .appendPoints (0 :: 2 :: [pt 1 1].flatMap Point.bytes) = true
      ∧ takes world 0 .readPoints [5, 3, 0, 0, 1] = true ∧ takes world 0 .readPoints [5, 0, 0, 0, 0] = true
      ∧ takes world 0 .readPoints [5, 0, 0, 0, 9] = true
      ∧ (takes world 0 .readPoints [5, 0, 4, 0, 1] = true ∧ [0, 4, 0, 1] = 0 :: (wordBytes 1024 ++ [1]))
      ∧ takes world 0 .programOption [0, 0, 1] = true ∧ takes world 0 .programOption [9, 0, 1] = true
      ∧ takes world 0 .programOption [6, 0, 33] = true ∧ FuseField.leaseLimit.inRange 33 = false := by decide +kernel

/-- The port's only response after the row, when it is a refusal, and whether the state is the one taken but for it. -/
def refusedWith (c : Instr) (p : Port) (k : CommandKind) (s : State) (payload : List Byte) : Option Status :=
  if takes s p k payload && (((queued s p k payload).takeCommand p).port p).inExec == some ⟨⟨k, 0x33, payload⟩, false⟩
      && controlRow c == some (p, k) then
    (answer s p k payload c).map (·.1)
  else none

/-- All proposal entries OPEN. -/
def fullProposals : State :=
  (List.finRange 8).foldl (fun s e => s.setProposal e (world.proposal 0)) world
/-- Slot 6's definition with P1 to approve, and no proposal entry FREE. -/
def fullForCommit : State := fullProposals.setSlot 6 (slotRecordOf (.defined (openTo 0x2)) 2 (some 0) none)

theorem witness_RefusedCommandChangesNothing :
    refusedWith (.hold 0) 0 .hold world [5] = some .leaseHeld
      ∧ refusedWith (.appendPoints 0) 0 .appendPoints world [0, 1, 0, 100, 0, 0] = some .notMonotonic
      ∧ refusedWith (.closeBuild 0) 0 .closeBuild fullForCommit ([0] ++ wordBytes (checksumOf (worldPoints.take 2)))
          = some .proposalFull
      ∧ refusedWith (.closeBuild 0) 0 .closeBuild world [0, 0, 0] = some .checksumMismatch := by decide +kernel

/-- P0 with a command in execution, its discard mark as given. -/
def executing (k : CommandKind) (d : Bool) : State :=
  world.setPort 0 { world.port 0 with inExec := some ⟨⟨k, 0x33, []⟩, d⟩ }
/-- P0 with `n` event records waiting. -/
def eventsWaiting (n : Nat) : State :=
  world.setPort 0 { world.port 0 with events := List.replicate n ⟨.storeLow, 0, 31, .zero, none⟩, attn := true }

theorem witness_ArrivalsAtAPort :
    ((executing .hold false).port 0).inExec = some ⟨⟨.hold, 0x33, []⟩, false⟩
      ∧ ((executing .attach true).port 0).inExec = some ⟨⟨.attach, 0x33, []⟩, true⟩
      ∧ (world.session 3).state = .detached ∧ (carriedOver.port 0).resetting = true
      ∧ (world.session 0).state = .attached 3 ∧ (world.port 0).resetting = false
      ∧ ((eventsWaiting 15).port 0).events.length = 15 ∧ ((eventsWaiting 16).port 0).events.length = 16 := by
  decide +kernel

/-- P3 has ended session 255. -/
def lastSession : State := world.setSession 3 { state := .detached, last := 255, teardownPending := false }

theorem witness_AttachBeginsSession :
    takes world 3 .attach [] = true ∧ (world.session 3).state = .detached ∧ (world.session 3).last = 0
      ∧ takes lastSession 3 .attach [] = true ∧ (lastSession.session 3).state = .detached
      ∧ (lastSession.session 3).last = 255
      ∧ takes world 0 .attach [] = true ∧ (world.session 0).state = .attached 3 := by decide +kernel

theorem witness_DetachEndsSession :
    takes world 0 .detach [] = true ∧ (world.session 0).state = .attached 3
      ∧ takes world 3 .detach [] = true ∧ (world.session 3).state = .detached := by decide +kernel

theorem witness_TeardownRequestAndPendingTeardown :
    ((world.presentRequest 0).takesClaims = true ∧ (world.presentRequest 0).requests = [0]
        ∧ (world.presentRequest 0).session 0 = world.session 0 ∧ (world.session 0).state = .attached 3)
      ∧ ((ending.presentRequest 0).takesClaims = true ∧ (ending.presentRequest 0).requests = [0]
        ∧ (ending.session 0).state = .ending 3)
      ∧ ((world.presentRequest 3).takesClaims = true ∧ (world.presentRequest 3).requests = [3]
        ∧ (world.session 3).state = .detached)
      ∧ (ending.takesTeardowns = true ∧ (ending.session 0).state = .ending 3
        ∧ (ending.session 0).teardownPending = true) := by decide +kernel

/-- DEFINER set to P1 alone. -/
def onlyP1Defines : State := { world with shadow := some { Shadow.defaults with definer := 0x2 } }

theorem witness_DefineTableChecksAndEffect :
    takes world 3 .defineTable [10, 3, 1, 2] = true ∧ world.isAttached 3 = false
      ∧ world.isAttached 0 = true ∧ takes world 0 .defineTable [64, 3, 1, 2] = true
      ∧ takes world 0 .defineTable [10, 0x10, 1, 2] = true ∧ takes world 0 .defineTable [10, 3, 0, 2] = true
      ∧ (takes world 0 .defineTable [63, 0xF, 1, 0] = true ∧ (world.slot 63).state = .vacant
        ∧ world.inUse.definer.getLsbD 0 = true ∧ (∀ q : Port, world.isEnabled q = true))
      ∧ (takes world 0 .defineTable [5, 3, 1, 2] = true ∧ (world.slot 5).state ≠ .vacant)
      ∧ (takes onlyP1Defines 0 .defineTable [10, 3, 1, 2] = true ∧ (onlyP1Defines.slot 10).state = .vacant
        ∧ onlyP1Defines.inUse.definer.getLsbD 0 = false ∧ onlyP1Defines.isAttached 0 = true) := by decide +kernel

theorem witness_TableInfoReportsSlot :
    takes world 3 .tableInfo [5] = true ∧ world.isAttached 3 = false ∧ world.isAttached 0 = true
      ∧ takes world 0 .tableInfo [64] = true ∧ takes world 0 .tableInfo [63] = true
      ∧ (world.slot 63).state = .vacant ∧ (world.slot 63).proposal = none ∧ world.callersLease 0 63 = none
      ∧ takes world 0 .tableInfo [9] = true ∧ (world.slot 9).state = .defined (openTo 0x0)
      ∧ takes world 0 .tableInfo [8] = true ∧ (world.slot 8).state = .retiring (openTo 0x0)
      ∧ takes world 0 .tableInfo [5] = true ∧ (world.slot 5).state = .live (openTo 0x2) 0 ∧ (world.record 0).isSome = true
      ∧ (world.callersLease 0 5).map (·.1) = some 0
      ∧ takes world 0 .tableInfo [7] = true ∧ (world.slot 7).proposal = some 0 ∧ (world.proposal 0).isSome = true := by
  decide +kernel

/-- Slot 5 with its fixed latch set. -/
def latched : State := world.setSlot 5 { world.slot 5 with fixedLatch := true }
/-- Slot 9 that P1 alone builds. -/
def builtByP1 : State := world.setSlot 9 (slotRecordOf (.defined { openTo 0x0 with builders := 0x2 }) 1 none none)

theorem witness_ProposeRetireChecksAndEffect :
    takes world 3 .proposeRetire [5] = true ∧ world.isAttached 3 = false
      ∧ takes world 0 .proposeRetire [64] = true ∧ world.isAttached 0 = true ∧ (world.session 0).state = .attached 3
      ∧ takes world 0 .proposeRetire [63] = true ∧ (world.slot 63).state.definition = none
      ∧ takes world 0 .proposeRetire [8] = true ∧ (world.slot 8).state = .retiring (openTo 0x0)
      ∧ (takes builtByP1 0 .proposeRetire [9] = true
        ∧ (builtByP1.slot 9).state = .defined { openTo 0x0 with builders := 0x2 })
      ∧ (takes latched 0 .proposeRetire [5] = true ∧ (latched.slot 5).state = .live (openTo 0x2) 0
        ∧ (openTo 0x2).builders.getLsbD 0 = true ∧ (latched.slot 5).fixedLatch = true)
      ∧ (takes world 0 .proposeRetire [6] = true ∧ (world.slot 6).build ≠ none ∧ (world.slot 6).fixedLatch = false)
      ∧ (takes world 0 .proposeRetire [7] = true ∧ (world.slot 7).proposal ≠ none ∧ (world.slot 7).build = none)
      ∧ (takes fullProposals 0 .proposeRetire [5] = true ∧ (fullProposals.slot 5).proposal = none
        ∧ (openTo 0x2).approvers.getLsbD 1 = true ∧ (∀ e, fullProposals.proposal e ≠ none))
      ∧ (takes world 0 .proposeRetire [5] = true ∧ (world.slot 5).proposal = none ∧ (world.slot 5).build = none
        ∧ world.proposal 1 = none)
      ∧ (takes world 0 .proposeRetire [9] = true ∧ ¬∃ q : Port, (openTo 0x0).approvers.getLsbD q.val = true ∧ q ≠ 0) := by
  decide +kernel

theorem witness_StoreInfoReportsFreeResources :
    takes world 0 .storeInfo [] = true ∧ takes world 3 .storeInfo [] = true := by decide +kernel

theorem witness_WrittenPointsReadBack :
    Memory.wf worldStore ∧ [(1 : BlockIndex), 2].Nodup ∧ (writeRun [1, 2] worldStore 15 [pt 3 4, pt 5 6]).isSome = true
      ∧ locate [1, 2] 15 = some 124 ∧ locate [1, 2] 16 = some 128 ∧ world.storeLaw
      ∧ (look (step world) (fun t => t.time)).isSome = true := by
  refine ⟨by decide +kernel, by decide, by decide +kernel, by decide, by decide, ?_, by decide +kernel⟩
  show Memory.wf world.store
  decide +kernel

theorem witness_ReadPointsReturnsStoredPoints :
    (takes world 0 .readPoints [5, 0, 0, 1, 2] = true
        ∧ [5, 0, 0, 1, 2] = [BitVec.ofNat 8 5, 0] ++ countBytes 1 ++ [BitVec.ofNat 8 2]
        ∧ (world.slot 5).state = .live (openTo 0x2) 0 ∧ (openTo 0x2).readers.getLsbD 0 = true
        ∧ (world.record 0).map (fun g => (g.pointCount, g.blocks.length)) = some (3, 1))
      ∧ (takes world 0 .readPoints [5, 0, 0, 2, 2] = true ∧ takes world 0 .readPoints [5, 0, 0x03, 0xFF, 8] = true)
      ∧ (takes world 1 .readPoints [8, 1, 0, 0, 1] = true
        ∧ (world.callersLease 1 8).map (fun x => (x.1, x.2.record)) = some (1, 4)
        ∧ (world.slot 8).state.definition = some (openTo 0x0) ∧ (world.record 4).isSome = true)
      ∧ (takes world 1 .readPoints [7, 2, 0, 0, 2] = true ∧ (world.slot 7).proposal = some 0
        ∧ (world.proposal 0).map (·.change) = some (.commit 3) ∧ (world.record 3).isSome = true) := by decide +kernel

/-- Slot 8's record 4 with two references. -/
def twice : State := world.setRecord 4 (some (recordOf 8 2 (.superseded 0x4444) 2 [5] 2))
/-- Another record of slot 8 in use. -/
def another : State := world.setRecord 9 (some (recordOf 8 3 (.superseded 0x5555) 2 [6] 1))

theorem witness_DroppedReferenceFreesSuperseded :
    world.record 0 = some (recordOf 5 8 (.current 0x1111) 3 [0] 1)
      ∧ twice.record 4 = some (recordOf 8 2 (.superseded 0x4444) 2 [5] 2)
      ∧ world.record 4 = some (recordOf 8 2 (.superseded 0x4444) 2 [5] 1)
      ∧ (world.slot 8).state = .retiring (openTo 0x0)
      ∧ (∀ r, r ≠ 4 → (world.record r).all (fun g => g.slot != 8) = true)
      ∧ another.record 4 = world.record 4 ∧ (another.record 9).map (·.slot) = some 8 := by decide +kernel

/-- Slot 5's next number counts on from the largest, and number 65535 is in use. -/
def wrapping : State :=
  (world.setSlot 5 { world.slot 5 with nextNumber := 65535 }).setRecord 0
    (some (recordOf 5 65535 (.current 0x1111) 3 [0] 1))

theorem witness_AssignedNumberIsFresh :
    (world.slot 5).nextNumber = 9 ∧ world.record 5 = none ∧ world.newNumber 5 = 9
      ∧ (wrapping.slot 5).nextNumber = 65535 ∧ wrapping.record 5 = none ∧ wrapping.newNumber 5 = 1 := by decide +kernel

/-- All build contexts OPEN. -/
def fullContexts : State := (List.finRange 4).foldl (fun s h => s.setContext h (world.context 0)) world
/-- All generation records in use. -/
def fullRecords : State := { world with records := Vector.replicate 128 (world.record 2) }
/-- A given number of free blocks. -/
def freeBlocks (n : Nat) : State := { world with freeList := (List.finRange 512).drop (512 - n) }

theorem witness_OpenBuildChecksAndEffect_refusals :
    (world.session 0).state = .attached 3
      ∧ (takes world 0 .openBuild [63, 0, 2, 0, 0] = true ∧ (world.slot 63).state = .vacant)
      ∧ (takes world 0 .openBuild [8, 0x04, 0x00, 0, 0] = true ∧ (world.slot 8).state = .retiring (openTo 0x0))
      ∧ [BitVec.ofNat 8 8] ++ countBytes 1024 ++ [Interpolation.linear.code, Extrapolation.clamp.code]
          = [8, 0x04, 0x00, 0, 0]
      ∧ (takes builtByP1 0 .openBuild [9, 0, 2, 0, 0] = true
        ∧ (builtByP1.slot 9).state = .defined { openTo 0x0 with builders := 0x2 })
      ∧ (takes latched 0 .openBuild [5, 0, 2, 0, 0] = true ∧ (latched.slot 5).state = .live (openTo 0x2) 0
        ∧ (latched.slot 5).fixedLatch = true)
      ∧ (takes world 0 .openBuild [6, 0, 2, 0, 0] = true ∧ (world.slot 6).build ≠ none)
      ∧ (takes world 0 .openBuild [7, 0, 2, 0, 0] = true ∧ (world.slot 7).proposal ≠ none)
      ∧ (takes fullContexts 0 .openBuild [9, 0, 2, 0, 0] = true ∧ ∀ h, fullContexts.context h ≠ none)
      ∧ (takes fullRecords 0 .openBuild [9, 0, 2, 0, 0] = true ∧ ∀ r, fullRecords.record r ≠ none)
      ∧ (takes (freeBlocks 1) 0 .openBuild [9, 0, 17, 0, 0] = true ∧ (freeBlocks 1).freeList.length < (17 + 15) / 16)
      := by decide +kernel

theorem witness_OpenBuildChecksAndEffect_effect :
    (world.slot 9).state = .defined (openTo 0x0) ∧ (openTo 0x0).builders.getLsbD 0 = true
      ∧ (world.slot 9).fixedLatch = false ∧ (world.slot 9).build = none ∧ (world.slot 9).proposal = none
      ∧ (world.context 1 = none ∧ world.context 0 ≠ none)
      ∧ (world.record 5 = none ∧ ∀ r, r < 5 → world.record r ≠ none)
      ∧ (takes world 0 .openBuild [9, 0, 40, 0, 1] = true ∧ (40 + 15) / 16 ≤ world.freeList.length)
      ∧ (takes (freeBlocks 1) 0 .openBuild [9, 0, 16, 0, 1] = true ∧ (16 + 15) / 16 = (freeBlocks 1).freeList.length)
      ∧ (takes (freeBlocks 32) 0 .openBuild [9, 0, 16, 0, 1] = true ∧ (freeBlocks 32).storeLowArmed = true
        ∧ (freeBlocks 32).freeList.length = 32)
      ∧ (takes (freeBlocks 33) 0 .openBuild [9, 0, 16, 0, 1] = true ∧ ¬((freeBlocks 33).freeList.length - 1 < 32)) := by
  decide +kernel

/-- P0's build with as many points as it declared: 2. -/
def fullBuild : State := world.setRecord 1 (some (recordOf 6 1 (.building 2 2000) 2 [1] 0))

theorem witness_AppendPointsChecksAndEffect :
    (world.session 0).state = .attached 3 ∧ world.context 0 = some ⟨6, 1, 0, 3⟩
      ∧ world.record 1 = some (recordOf 6 1 (.building 20 2000) 2 [1, 2] 0)
      ∧ (recordOf 6 1 (.building 20 2000) 2 [1, 2] 0).points world.store = some [pt 0 0, pt 100 1000]
      ∧ takes world 0 .appendPoints ([0, 1] ++ [pt 101 (-1)].flatMap Point.bytes) = true
      ∧ takes world 0 .appendPoints ([0, 1] ++ [pt 100 0].flatMap Point.bytes) = true
      ∧ takes world 0 .appendPoints ([0, 8] ++ (List.replicate 8 (pt 100 0)).flatMap Point.bytes) = true
      ∧ fullBuild.record 1 = some (recordOf 6 1 (.building 2 2000) 2 [1] 0)
      ∧ (recordOf 6 1 (.building 2 2000) 2 [1] 0).points fullBuild.store = some [pt 0 0, pt 100 1000]
      ∧ takes fullBuild 0 .appendPoints ([0, 1] ++ [pt 101 (-1)].flatMap Point.bytes) = true
      ∧ [pt 0 0, pt 100 1000].Pairwise (fun a c => a.x.toInt < c.x.toInt)
      ∧ (takes world 0 .appendPoints ([3, 1] ++ [pt 101 (-1)].flatMap Point.bytes) = true ∧ world.context 3 = none)
      ∧ (takes world 1 .appendPoints ([0, 1] ++ [pt 101 (-1)].flatMap Point.bytes) = true
        ∧ (world.session 1).state = .attached 7) := by decide +kernel

/-- P0's build with one point. -/
def onePoint : State := world.setRecord 1 (some (recordOf 6 1 (.building 20 2000) 1 [1, 2] 0))

theorem witness_CloseBuildChecksAndEffect :
    (world.session 0).state = .attached 3 ∧ world.context 0 = some ⟨6, 1, 0, 3⟩
      ∧ ((recordOf 6 1 (.building 20 2000) 2 [1, 2] 0).points world.store).map checksumOf
          = some (checksumOf (worldPoints.take 2))
      ∧ (takes onePoint 0 .closeBuild [0, 0, 0] = true
        ∧ onePoint.record 1 = some (recordOf 6 1 (.building 20 2000) 1 [1, 2] 0)
        ∧ (recordOf 6 1 (.building 20 2000) 1 [1, 2] 0).points onePoint.store = some [pt 0 0])
      ∧ (takes world 0 .closeBuild [0, 0, 0] = true ∧ checksumOf (worldPoints.take 2) ≠ 0)
      ∧ (takes world 0 .closeBuild ([0] ++ wordBytes (checksumOf (worldPoints.take 2))) = true
        ∧ world.maskOf 6 (fun d => d.approvers) = 0)
      ∧ (takes fullForCommit 0 .closeBuild ([0] ++ wordBytes (checksumOf (worldPoints.take 2))) = true
        ∧ fullForCommit.maskOf 6 (fun d => d.approvers) = 0x2 ∧ ∀ e, fullForCommit.proposal e ≠ none)
      ∧ (let s := world.setSlot 6 (slotRecordOf (.defined (openTo 0x2)) 2 (some 0) none)
        takes s 0 .closeBuild ([0] ++ wordBytes (checksumOf (worldPoints.take 2))) = true
        ∧ s.maskOf 6 (fun d => d.approvers) = 0x2 ∧ s.proposal 1 = none)
      ∧ (takes world 0 .closeBuild [3, 0, 0] = true ∧ world.context 3 = none)
      ∧ (takes world 1 .closeBuild [0, 0, 0] = true ∧ (world.session 1).state = .attached 7) := by decide +kernel

theorem witness_CancelBuildDiscards :
    (world.session 0).state = .attached 3 ∧ (world.session 1).state = .attached 7
      ∧ takes world 0 .cancelBuild [0] = true ∧ world.context 0 = some ⟨6, 1, 0, 3⟩
      ∧ world.record 1 = some (recordOf 6 1 (.building 20 2000) 2 [1, 2] 0)
      ∧ takes world 1 .cancelBuild [0] = true ∧ takes world 0 .cancelBuild [3] = true ∧ world.context 3 = none := by
  decide +kernel

theorem witness_OpeningAChange :
    world.maskOf 5 (fun d => d.approvers) = 0x2 ∧ world.proposal 1 = none ∧ (∀ e, e < 1 → world.proposal e ≠ none)
      ∧ world.maskOf 9 (fun d => d.approvers) = 0x0 ∧ world.maskOf 5 (fun d => d.readers) = 0xF := by decide +kernel

/-- Slot 9 with a PENDING record 9, slots 5 and 7 as they are. -/
def pendingOn (k : SlotIndex) : State := world.setRecord 9 (some (recordOf k 12 (.pending 0x7777) 2 [6] 0))

theorem witness_AdoptionChangesSlotAndRecords :
    ((pendingOn 9).slot 9).state = .defined (openTo 0x0)
      ∧ (pendingOn 9).record 9 = some (recordOf 9 12 (.pending 0x7777) 2 [6] 0)
      ∧ (((pendingOn 5).slot 5).state = .live (openTo 0x2) 0
        ∧ (pendingOn 5).record 0 = some (recordOf 5 8 (.current 0x1111) 3 [0] 1))
      ∧ ((pendingOn 7).slot 7).state = .live (openTo 0x6) 2
      ∧ (pendingOn 7).record 2 = some (recordOf 7 4 (.current 0x2222) 2 [3] 0)
      ∧ (∀ r, r ≠ 2 → r ≠ 3 → (world.record r).all (fun g => g.slot != 7) = true)
      ∧ (world.record 3).map (·.slot) = some 7
      ∧ (∀ r, r ≠ 2 → ((world.setRecord 3 none).record r).all (fun g => g.slot != 7) = true) := by decide +kernel

/-- A RETIRE of slot 5 in entry 1, proposed by P0. -/
def retireOpen : State :=
  (look (exec (.proposeRetire 0) (queued world 0 .proposeRetire [5])) id).getD world

theorem witness_ResolutionOfAProposal :
    (world.proposal 0).map (·.change) = some (.commit 3)
      ∧ world.record 3 = some (recordOf 7 5 (.pending 0x3333) 2 [4] 0)
      ∧ (retireOpen.proposal 1).map (fun q => (q.slot, q.change)) = some (5, .retire) := by decide +kernel

/-- P2's approval is the last outstanding one. -/
def oneLeft : State :=
  (look (exec (.approve 1) (queued world 1 .approve [7, 0, 5])) id).getD world

/-- P1, which has approved, is ENDING. -/
def approverEnding : State := (look (exec (.teardownRequest 1) (oneLeft.presentRequest 1)) id).getD world
/-- P2's APPROVE before P1's teardown adopts with P1's pair counted, and after it is answered PENDING (Table 67). -/
theorem test_approve_beside_teardown :
    answer approverEnding 2 .approve [7, 0, 5] (.approve 2) = some (.ok, [1, 0])
      ∧ answer ((look (exec (.pendingTeardown 1) approverEnding) id).getD world) 2 .approve [7, 0, 5] (.approve 2)
        = some (.ok, [0, 1]) := by decide +kernel

theorem witness_ApproveChecksAndEffect :
    takes world 3 .approve [7, 0, 5] = true ∧ world.isAttached 3 = false
      ∧ takes world 1 .approve [64, 0, 5] = true ∧ (world.session 1).state = .attached 7
      ∧ takes world 1 .approve [63, 0, 5] = true ∧ (world.slot 63).proposal = none
      ∧ (world.slot 7).proposal = some 0 ∧ (world.proposal 0).map (·.approvers) = some 0x6
      ∧ (takes world 0 .approve [7, 0, 5] = true ∧ (0x6 : PortSet).getLsbD 0 = false)
      ∧ (takes world 1 .approve [7, 0, 4] = true ∧ (world.proposal 0).map (fun q => world.numberOfChange q.change) = some 5)
      ∧ takes world 1 .approve [7, 0, 5] = true
      ∧ (takes oneLeft 2 .approve [7, 0, 5] = true ∧ (oneLeft.session 2).state = .attached 4
        ∧ (oneLeft.proposal 0).map (fun q => (q.approvals[1], q.approvals[2])) = some (some 7, none)) := by decide +kernel

theorem witness_VetoAndWithdrawResolve :
    (world.session 0).state = .attached 3 ∧ (world.session 1).state = .attached 7
      ∧ (world.slot 7).proposal = some 0
      ∧ (world.proposal 0).map (fun q => (q.proposer, q.session, world.numberOfChange q.change)) = some (0, 3, 5)
      ∧ takes world 0 .veto [7, 0, 5] = true ∧ takes world 1 .veto [7, 0, 4] = true
      ∧ takes world 1 .veto [7, 0, 5] = true ∧ takes world 1 .withdraw [7] = true
      ∧ takes world 0 .withdraw [7] = true
      ∧ (takes cameRound 0 .withdraw [7] = true ∧ (cameRound.session 0).state = .attached 3
        ∧ (cameRound.slot 7).proposal = some 0
        ∧ (cameRound.proposal 0).map (fun q => (q.proposer, q.session, q.proposerEnded)) = some (0, 3, true))
      ∧ takes world 1 .veto [63, 0, 5] = true ∧ takes world 1 .withdraw [63] = true ∧ (world.slot 63).proposal = none := by
  decide +kernel

/-- All lease entries IN USE by P2, on slots 5 and 7, and a limit of 32. -/
def fullLeases : State :=
  let s := { world with shadow := some { Shadow.defaults with leaseLimit := 32 } }
  { s with leases := Vector.replicate 32 (some ⟨2, 4, 5, 0, 3000⟩) }
/-- A limit of one lease. -/
def limitOne : State := { world with shadow := some { Shadow.defaults with leaseLimit := 1 } }
/-- Slot 5 that no port reads. -/
def unread : State := world.setSlot 5 (slotRecordOf (.live { openTo 0x2 with readers := 0 } 0) 9 none none)

theorem witness_ReadPointsReturnsStoredPoints_refusals :
    world.isAttached 0 = true
      ∧ (takes world 0 .readPoints [8, 0, 0, 0, 1] = true ∧ (world.slot 8).state = .retiring (openTo 0x0))
      ∧ (takes unread 0 .readPoints [5, 0, 0, 0, 1] = true
        ∧ (unread.slot 5).state = .live { openTo 0x2 with readers := 0 } 0)
      ∧ takes world 0 .readPoints [63, 1, 0, 0, 1] = true ∧ takes world 0 .readPoints [63, 2, 0, 0, 1] = true
      ∧ (world.slot 63).state = .vacant
      ∧ takes unread 0 .readPoints [5, 1, 0, 0, 1] = true
      ∧ (takes world 0 .readPoints [9, 1, 0, 0, 1] = true ∧ (world.slot 9).state = .defined (openTo 0x0)
        ∧ world.callersLease 0 9 = none)
      ∧ (takes builtByP1 0 .readPoints [9, 2, 0, 0, 1] = true
        ∧ (builtByP1.slot 9).state = .defined { openTo 0x0 with builders := 0x2 })
      ∧ (takes world 0 .readPoints [9, 2, 0, 0, 1] = true ∧ (world.slot 9).proposal = none)
      ∧ (takes retireOpen 1 .readPoints [5, 2, 0, 0, 1] = true ∧ (retireOpen.slot 5).proposal = some 1
        ∧ (retireOpen.proposal 1).map (·.change) = some .retire) := by decide +kernel

theorem witness_HoldChecksAndEffect :
    takes world 3 .hold [5] = true ∧ world.isAttached 3 = false
      ∧ takes world 1 .hold [64] = true ∧ (world.session 1).state = .attached 7
      ∧ takes world 1 .hold [9] = true ∧ (world.slot 9).state = .defined (openTo 0x0)
      ∧ (takes unread 1 .hold [5] = true ∧ (unread.slot 5).state = .live { openTo 0x2 with readers := 0 } 0)
      ∧ (takes world 0 .hold [5] = true ∧ world.lease 0 = some ⟨0, 3, 5, 0, 3000⟩)
      ∧ (takes limitOne 0 .hold [7] = true ∧ (limitOne.slot 7).state = .live (openTo 0x6) 2
        ∧ limitOne.inUse.leaseLimit = 1 ∧ (∀ e, (limitOne.lease e).all (fun l => !(l.port == 0 && l.slot == 7)) = true))
      ∧ (takes fullLeases 0 .hold [5] = true ∧ (∀ e, fullLeases.lease e ≠ none) ∧ fullLeases.inUse.leaseLimit = 32)
      ∧ (takes world 1 .hold [5] = true ∧ (world.slot 5).state = .live (openTo 0x2) 0 ∧ world.lease 2 = none
        ∧ (∀ e, e < 2 → world.lease e ≠ none) ∧ (world.record 0).isSome = true) := by decide +kernel

theorem witness_RenewAndRelease :
    world.isAttached 1 = true ∧ takes world 1 .renew [8] = true ∧ takes world 1 .release [8] = true
      ∧ world.callersLease 1 8 = some (1, ⟨1, 7, 8, 4, 3000⟩) ∧ (world.record 4).isSome = true
      ∧ takes world 1 .renew [5] = true ∧ takes world 1 .release [5] = true ∧ world.callersLease 1 5 = none := by
  decide +kernel

theorem witness_ExpiriesEndTheirObjects :
    (∀ t ∈ [1500, 2000, 3000], ({ world with time := t } : State).takesExpiries = true)
      ∧ world.context 0 = some ⟨6, 1, 0, 3⟩ ∧ world.record 1 = some (recordOf 6 1 (.building 20 2000) 2 [1, 2] 0)
      ∧ (world.session 0).state = .attached 3
      ∧ (ending.takesExpiries = true ∧ (ending.session 0).state ≠ .attached 3 ∧ ending.context 0 = world.context 0
        ∧ ending.lease 0 = world.lease 0)
      ∧ (world.proposal 0).map (·.deadline) = some 1500
      ∧ world.lease 1 = some ⟨1, 7, 8, 4, 3000⟩ ∧ (world.record 4).isSome = true
      ∧ (world.session 1).state = .attached 7 := by decide +kernel

/-- P1's lookup waiting. -/
def lookupAtP1 : State := queued world 1 .lookup [5, 0, 0, 150]
/-- P3's batch waiting. -/
def batchAtP3 : State := queued world 3 .lookupBatch [5, 0, 2, 0, 250, 0, 50]

theorem witness_LaneGrantTakesFirstEligiblePort :
    (lookupAtP1.phase = .running ∧ lookupAtP1.lane 0 = none ∧ (1 : Port) = lookupAtP1.lanePtr + 1
        ∧ lookupAtP1.laneEligible lookupAtP1.lanePtr = false ∧ lookupAtP1.isEnabled 1 = true
        ∧ (lookupAtP1.port 1).resetting = false ∧ (lookupAtP1.port 1).inExec = none
        ∧ (lookupAtP1.port 1).cmdQueue = [⟨.lookup, 0x33, [5, 0, 0, 150]⟩])
      ∧ ((3 : Port) = batchAtP3.lanePtr + 3
        ∧ (∀ j : Fin 4, j < 3 → batchAtP3.laneEligible (batchAtP3.lanePtr + j) = false)
        ∧ (batchAtP3.port 3).cmdQueue = [⟨.lookupBatch, 0x33, [5, 0, 2] ++ [250, 50].flatMap wordBytes⟩]) := by decide +kernel

/-- P1's lookup with these bytes granted to L0. -/
def grantedWith (s : State) (payload : List Byte) : State :=
  (look (exec .laneGrant (queued s 1 .lookup payload)) id).getD s

theorem witness_CaptureClaimChecksAndEffect_refusals :
    (detachedWithLookup.takesClaims = true ∧ detachedWithLookup.isAttached 1 = false)
      ∧ (∀ payload ∈ ([[64, 0, 0, 150], [5, 3, 0, 150], [5, 0, 0, 150], [9, 0, 0, 150], [5, 2, 0, 150]] : List (List Byte)),
        (grantedWith world payload).takesClaims = true ∧ (grantedWith world payload).isAttached 1 = true
        ∧ ((grantedWith world payload).lane 0).map (fun w => (w.port, w.capture.isNone, [w.slot, w.options]))
          = some (1, true, payload.take 2))
      ∧ (world.slot 9).state = .defined (openTo 0x0)
      ∧ ((grantedWith unread [5, 0, 0, 150]).slot 5).state = .live { openTo 0x2 with readers := 0 } 0
      ∧ world.callersLease 1 5 = none ∧ (world.slot 5).state = .live (openTo 0x2) 0 := by decide +kernel

/-- The batch of P1 with an input count of 0, 16 and 17, granted to L0. -/
def batchOf (n : Byte) (inputs : Nat) : State :=
  (look (exec .laneGrant (queued world 1 .lookupBatch ([5, 0, n] ++ (List.replicate inputs 7).flatMap wordBytes))) id).getD
    world

theorem witness_CaptureClaimChecksAndEffect_effect :
    (((batchOf 0 1).lane 0).map (fun w => (w.count, w.inputs.length)) = some (0, 1)
        ∧ ((batchOf 16 16).lane 0).map (fun w => (w.count, w.inputs.length)) = some (16, 16)
        ∧ ((batchOf 17 16).lane 0).map (fun w => (w.count, w.inputs.length)) = some (17, 16)
        ∧ ((batchOf 3 2).lane 0).map (fun w => (w.count, w.inputs.length)) = some (3, 2))
      ∧ (world.callersLease 1 8).map (fun x => (x.1, x.2.record)) = some (1, 4) ∧ (world.record 4).isSome = true
      ∧ (world.slot 8).state.definition = some (openTo 0x0) ∧ (openTo 0x0).readers.getLsbD 1 = true
      ∧ ((granted 8).lane 0).map (fun w => (w.slot, w.options)) = some (8, 0)
      ∧ ((granted 5).lane 0).map (fun w => (w.slot, w.options)) = some (5, 0) ∧ (world.record 0).isSome = true := by
  decide +kernel

/-- P1's lookup on slot `k` in flight. -/
def inFlight (k : Byte) : State := (look (exec (.captureClaim 0) (granted k)) id).getD world

theorem witness_ReleaseClaimCompletesLookup :
    (inFlight 5).takesClaims = true
      ∧ ((inFlight 5).lane 0).map (fun w => (w.frame.kind, w.capture)) = some (.lookup, some ⟨0, false, []⟩)
      ∧ ((inFlight 5).record 0).bind (fun g => (g.points (inFlight 5).store).map List.length) = some 3
      ∧ (let s := (look (exec (.captureClaim 0) (batchOf 16 16)) id).getD world
        s.takesClaims = true
        ∧ (s.lane 0).map (fun w => (w.frame.kind, w.capture)) = some (.lookupBatch, some ⟨0, false, []⟩)) := by
  decide +kernel

/-- Slot 5's table with REJECT outside its range. -/
def rejecting : State :=
  world.setRecord 0 (some { recordOf 5 8 (.current 0x1111) 3 [0] 1 with extrapolation := .reject })

/-- The refused lookup of slot 9, the rejected input of `rejecting`, and the batch of P3. -/
theorem witness_LookupsLeaveTablesAlone_others :
    (queued world 1 .lookup [9, 0, 0, 150]).laneChoice = some 1
      ∧ (match world.captureChecks (LaneWork.ofFrame 1 ⟨.lookup, 0x33, [9, 0, 0, 150]⟩) with
          | .error st => st == .notLive
          | .ok _ => false) = true
      ∧ answer rejecting 1 .lookup [5, 0, 0, 250] (.lookup 1) = some (.outOfRange, [0, 8, 0x0A])
      ∧ answer rejecting 1 .lookup [5, 0, 0, 150] (.lookup 1) = some (.ok, [0, 8, 0x04, 0xE2, 0])
      ∧ batchAtP3.laneChoice = some 3 ∧ batchAtP3.laneOf 3 .lookupBatch = none := by decide +kernel

theorem witness_LookupsLeaveTablesAlone :
    let s := queued world 1 .lookup [5, 0, 0, 150]
    s.takesClaims = true ∧ s.laneOf 1 .lookup = none ∧ s.laneChoice = some 1 ∧ s.idleLane = some 0
      ∧ s.captureChecks (LaneWork.ofFrame 1 ⟨.lookup, 0x33, [5, 0, 0, 150]⟩) = .ok (0, false)
      ∧ (s.record 0).map (fun g => (g.state.isCurrent, g.refCount, (g.points s.store).map List.length))
          = some (true, 1, some 3) := by
  refine ⟨by decide +kernel, by decide +kernel, by decide +kernel, by decide +kernel, rfl, by decide +kernel⟩

theorem witness_InsideInputsInterpolate :
    worldPoints.Pairwise (fun a b => a.x.toInt < b.x.toInt)
      ∧ (worldPoints[0]? = some (pt 0 0) ∧ worldPoints[1]? = some (pt 100 1000)
        ∧ (pt 0 0).x.toInt ≤ (BitVec.ofInt 16 99).toInt ∧ (BitVec.ofInt 16 99).toInt < (pt 100 1000).x.toInt)
      ∧ ((pt 100 1000).x.toInt ≤ (BitVec.ofInt 16 100).toInt)
      ∧ (worldPoints[2]? = some (pt 200 1500) ∧ worldPoints.length = 2 + 1 ∧ BitVec.ofInt 16 200 = (pt 200 1500).x) := by
  decide

theorem witness_OutsideInputsFollowExtrapolation :
    worldPoints.Pairwise (fun a b => a.x.toInt < b.x.toInt) ∧ 2 ≤ worldPoints.length
      ∧ worldPoints[0]? = some (pt 0 0) ∧ worldPoints[1]? = some (pt 100 1000)
      ∧ worldPoints[worldPoints.length - 1]? = some (pt 200 1500)
      ∧ worldPoints[worldPoints.length - 2]? = some (pt 100 1000)
      ∧ (BitVec.ofInt 16 (-1)).toInt < (pt 0 0).x.toInt ∧ (pt 200 1500).x.toInt < (BitVec.ofInt 16 201).toInt := by
  decide

/-- LEASE_LIMIT programmed to 4. -/
def programmed : State := (look (exec .burnCompletion burning) id).getD world
/-- LEASE_LIMIT spoiled. -/
def spoiled : State := world.setFuse .leaseLimit { start := true, completion := false, cells := 0 }
/-- Provisioning closed. -/
def closed : State := world.setFuse .provisionClosed { start := true, completion := true, cells := 1 }

theorem witness_ShadowLoadsProgrammedFieldsOrDefaults :
    programmed.burn = none
      ∧ ((programmed.fuse .leaseLimit).start = true ∧ (programmed.fuse .leaseLimit).completion = true)
      ∧ (programmed.fuse .fixedSlots).start = false
      ∧ spoiled.burn = none ∧ (spoiled.fuse .leaseLimit).completion = false := by decide +kernel

theorem witness_ReadOptionsReportsArrayAndShadow :
    takes world 3 .readOptions [] = true ∧ (world.fuse .leaseLimit).start = false
      ∧ takes burning 1 .readOptions [] = true ∧ burning.burn = some ⟨.leaseLimit, 4, 0⟩
      ∧ (takes programmed 1 .readOptions [] = true ∧ (programmed.fuse .leaseLimit).completion = true)
      ∧ (takes spoiled 1 .readOptions [] = true ∧ spoiled.burn = none ∧ (spoiled.fuse .leaseLimit).start = true) := by
  decide +kernel

theorem witness_ProgramOptionAndCloseProvisioning :
    world.isAttached 0 = true ∧ FuseField.leaseLimit.inRange 32 = true
      ∧ BitVec.ofNat 8 (FuseField.leaseLimit.index.val + 1) = (6 : Byte)
      ∧ (takes world 0 .programOption [6, 0, 32] = true ∧ world.burn = none
        ∧ world.fuseState .provisionClosed = .blank ∧ world.fuseState .leaseLimit = .blank)
      ∧ (takes closed 0 .programOption [6, 0, 32] = true ∧ closed.fuseState .provisionClosed = .programmed)
      ∧ (takes programmed 1 .programOption [6, 0, 32] = true ∧ programmed.fuseState .leaseLimit = .programmed)
      ∧ (takes spoiled 0 .programOption [6, 0, 32] = true ∧ spoiled.fuseState .leaseLimit = .spoiled)
      ∧ (takes burning 1 .programOption [6, 0, 32] = true ∧ burning.fuseState .leaseLimit = .burning)
      ∧ takes world 0 .closeProvisioning [] = true ∧ takes closed 0 .closeProvisioning [] = true := by decide +kernel

/-- PROVISION_CLOSED under burn for P0. -/
def closing : State := (look (exec (.closeProvisioning 0) (queued world 0 .closeProvisioning [])) id).getD world

theorem witness_BurnCompletionProgramsField :
    burning.burn = some ⟨.leaseLimit, 4, 0⟩
      ∧ (burning.port 0).inExec = some ⟨⟨.programOption, 0x33, [6, 0, 4]⟩, false⟩
      ∧ closing.burn = some ⟨.provisionClosed, 1, 0⟩
      ∧ (closing.port 0).inExec = some ⟨⟨.closeProvisioning, 0x33, []⟩, false⟩ := by decide +kernel

/-- P3's window holds eight frames. -/
def fullWindow : State :=
  world.setPort 3 { world.port 3 with cmdQueue := List.replicate 8 ⟨.storeInfo, 0x01, []⟩ }
/-- P3 with seven frames. -/
def oneFree : State :=
  world.setPort 3 { world.port 3 with cmdQueue := List.replicate 7 ⟨.storeInfo, 0x01, []⟩ }

theorem witness_PostIsJudgedInOrder :
    world.isEnabled 3 = true ∧ (world.port 3).txn = none ∧ world.phase = .running ∧ held.phase ≠ .running
      ∧ held.isEnabled 3 = true ∧ (held.port 3).txn = none
      ∧ ((carriedOver.port 0).resetting = true ∧ carriedOver.isEnabled 0 = true ∧ (carriedOver.port 0).txn = none)
      ∧ (crc8 [0x13, 0x2A, 0] ≠ 0 ∧ crc8 [0x13, 0x2A, 0] = crc8 ([CommandKind.storeInfo.code, 0x2A, 0] ++ []))
      ∧ (∀ k ∈ CommandKind.all, k.code ≠ 0x00)
      ∧ (CommandKind.storeInfo.allowsLength 1 = false ∧ CommandKind.storeInfo.allowsLength 0 = true)
      ∧ ((fullWindow.port 3).window = 8 ∧ (oneFree.port 3).window = 7) := by decide +kernel

/-- For FetchSendsHeadResponse, DrainSendsAndRemovesRecords, QuietTransactionsChangeNothing and
TransactionsActOnTheirOwnPort. -/
theorem witness_transactions :
    waiting.isEnabled 3 = true ∧ (waiting.port 3).txn = none ∧ waiting.phase = .running
      ∧ (waiting.port 3).respQueue.length = 1 ∧ (world.port 3).respQueue = []
      ∧ (waiting.port 3).events.length = 2 ∧ 6 * min 4 2 + 3 = 15
      ∧ (waiting.port 3).lastFetched = none
      ∧ (look (exec (.fetch 3 5 .closed) waiting) (fun t => (t.port 3).lastFetched.isSome)) = some true
      ∧ (let w := fun x : PortState => x.cmdQueue.length + (if x.inExec = none then 0 else 1) + x.respQueue.length
        w (world.port 3) = 0 ∧ w (fullWindow.port 3) = 8)
      ∧ held.isEnabled 3 = true ∧ (held.port 3).txn = none ∧ held.phase ≠ .running ∧ (held.port 3).lost = false
      ∧ linkRow (.post 3 [] .selected) = some 3 := by decide +kernel

/-- P3 is disabled. -/
def disabled : State := { world with shadow := some { Shadow.defaults with portEnable := 0x7 } }

theorem witness_PortResetEmptiesPort :
    world.phase = .running ∧ world.isEnabled 0 = true ∧ (world.port 0).prstnLow = false ∧ (world.port 0).attached = true
      ∧ (world.port 3).attached = false ∧ world.nextCommand 0 = none
      ∧ (queued world 0 .attach []).nextCommand 0 = some ⟨.attach, 0x33, []⟩
      ∧ ((carriedOver.port 0).prstnLow = true ∧ carriedOver.phase = .running ∧ carriedOver.isEnabled 0 = true)
      ∧ (disabled.isEnabled 3 = false ∧ (disabled.port 3).prstnLow = false)
      ∧ (held.phase ≠ .running ∧ (held.port 0).prstnLow = false) := by decide +kernel

/-- WARM_RETAIN 0. -/
def coldOnly : State := { world with shadow := some { Shadow.defaults with warmRetain := false } }


/-- For DeviceResetAndItsKind, ColdStartUpClearsThePart and WarmStartUpKeepsCurrentGenerations. -/
theorem witness_resets :
    world.rstnLow = false ∧ world.phase = .running ∧ world.inUse.warmRetain = true ∧ coldOnly.inUse.warmRetain = false
      ∧ starting.rstnLow = false ∧ starting.phase = .startUp .cold
      ∧ held.rstnLow = true ∧ held.phase = .inReset .warm ∧ warming.phase = .startUp .warm
      ∧ disabling.phase = .startUp .cold ∧ disabling.loadShadow.portEnable = 0x7
      ∧ (warming.slot 8).state = .retiring (openTo 0x0) ∧ (warming.slot 9).state = .defined (openTo 0x0)
      ∧ (warming.slot 5).state = .live (openTo 0x2) 0 ∧ (warming.slot 63).state = .vacant := by decide +kernel

theorem witness_ResetStateIsAColdStart :
    world.fuses = Vector.replicate 9 FuseCell.blank ∧ world.rstnLow = false ∧ world.pending = []
      ∧ ∀ p, (world.port p).prstnLow = false ∧ (world.port p).txn = none ∧ (world.port p).sent = []
        ∧ (world.port p).cuts = 0 := by decide +kernel

/-! ## The laws hold in the small world -/

theorem world_records : ∀ r g, world.record r = some g →
    (r = 0 ∧ g = recordOf 5 8 (.current 0x1111) 3 [0] 1) ∨ (r = 1 ∧ g = recordOf 6 1 (.building 20 2000) 2 [1, 2] 0)
      ∨ (r = 2 ∧ g = recordOf 7 4 (.current 0x2222) 2 [3] 0) ∨ (r = 3 ∧ g = recordOf 7 5 (.pending 0x3333) 2 [4] 0)
      ∨ (r = 4 ∧ g = recordOf 8 2 (.superseded 0x4444) 2 [5] 1) := by
  have h : ∀ r, ∀ g ∈ world.record r,
    (r = 0 ∧ g = recordOf 5 8 (.current 0x1111) 3 [0] 1) ∨ (r = 1 ∧ g = recordOf 6 1 (.building 20 2000) 2 [1, 2] 0)
      ∨ (r = 2 ∧ g = recordOf 7 4 (.current 0x2222) 2 [3] 0) ∨ (r = 3 ∧ g = recordOf 7 5 (.pending 0x3333) 2 [4] 0)
      ∨ (r = 4 ∧ g = recordOf 8 2 (.superseded 0x4444) 2 [5] 1) := by decide +kernel
  exact h

theorem witness_EveryBlockStaysInOnePlace : world.blockLaw := by
  unfold State.blockLaw
  decide +kernel

theorem witness_PortLawsKept : world.portLaw := by
  have h : ∀ p, ((world.port p).window + (world.port p).promised ≤ 8 ∧ (world.port p).events.length ≤ 16
    ∧ (world.port p).attn = (world.port p).wantsAttention) ∧ (world.port p).attached = world.isAttached p := by
    decide +kernel
  exact h

theorem witness_SessionLawKept : world.sessionLaw := by
  refine ⟨?_, ?_, ?_, ?_, ?_⟩
  · intro p
    have h : ∀ p, (world.session p) = { state := .attached 3, last := 3, teardownPending := false }
      ∨ (world.session p) = { state := .attached 7, last := 7, teardownPending := false }
      ∨ (world.session p) = { state := .attached 4, last := 4, teardownPending := false }
      ∨ (world.session p) = SessionEntry.initial := by decide +kernel
    obtain h | h | h | h := h p <;> rw [h] <;> simp [SessionEntry.law, SessionEntry.initial]
  · have h : ∀ e, ∀ l ∈ world.lease e, (world.session l.port).number = some l.session := by decide +kernel
    exact h
  · have h : ∀ e, ∀ c ∈ world.context e, (world.session c.owner).number = some c.session := by decide +kernel
    exact h
  · have h : ∀ e, ∀ q ∈ world.proposal e, ∀ p : Port, ∀ n ∈ q.approvals[p], (world.session p).number = some n := by
      decide +kernel
    exact fun e q p n he hn => h e q he p n hn
  · have h : ∀ e, ∀ q ∈ world.proposal e, (world.session q.proposer).number = some q.session := by decide +kernel
    exact fun e q he _ => h e q he

/-- For the clause on R99: a step that keeps the proposal whose proposer's session has ended. -/
theorem witness_EndedProposerStays :
    (cameRound.proposal 0).map (·.proposerEnded) = some true
      ∧ look (step cameRound) (fun t => (t.proposal 0).map (·.proposerEnded)) = some (some true) := by decide +kernel

theorem witness_LeaseLawKept : world.leaseLaw := by
  intro _
  refine ⟨?_, by decide +kernel⟩
  have h : ∀ e e', ∀ l ∈ world.lease e, ∀ l' ∈ world.lease e', l.port = l'.port → l.slot = l'.slot → e = e' := by
    decide +kernel
  exact fun e e' l l' a b => h e e' l a l' b

theorem witness_SlotLawAndFixedLatchKept : world.slotLaw := by
  constructor
  · have h : ∀ k h, (world.slot k).build = some h ↔ ∃ c ∈ world.context h, c.slot = k := by decide +kernel
    exact h
  · have h : ∀ k e, (world.slot k).proposal = some e ↔ ∃ q ∈ world.proposal e, q.slot = k := by decide +kernel
    exact h
  · decide +kernel
  · decide +kernel
  · have h : ∀ k, (world.slot k).state.isRetiring = true →
      (world.slot k).build = none ∧ (world.slot k).proposal = none ∧ (world.slot k).fixedLatch = false := by
      decide +kernel
    exact fun k d hd => h k (by rw [hd]; rfl)
  · have h : ∀ k, (world.slot k).fixedLatch = false := by decide +kernel
    exact fun k hk => absurd hk (by simp [h k])

/-- The latch clause: the law holds in `latched`, whose slot 5 has its latch set, and no start-up waits. -/
theorem witness_FixedLatch : latched.slotLaw ∧ (latched.slot 5).fixedLatch = true ∧ latched.pending = [] := by
  refine ⟨?_, by decide +kernel⟩
  constructor
  · have h : ∀ k h, (latched.slot k).build = some h ↔ ∃ c ∈ latched.context h, c.slot = k := by decide +kernel
    exact h
  · have h : ∀ k e, (latched.slot k).proposal = some e ↔ ∃ q ∈ latched.proposal e, q.slot = k := by decide +kernel
    exact h
  · decide +kernel
  · decide +kernel
  · have h : ∀ k, (latched.slot k).state.isRetiring = true →
      (latched.slot k).build = none ∧ (latched.slot k).proposal = none ∧ (latched.slot k).fixedLatch = false := by
      decide +kernel
    exact fun k d hd => h k (by rw [hd]; rfl)
  · have h : ∀ k, (latched.slot k).fixedLatch = true → k = 5 := by decide +kernel
    have h5 : (latched.slot 5).state = .live (openTo 0x2) 0 ∧ (latched.slot 5).build = none
      ∧ (latched.slot 5).proposal = none := by decide +kernel
    intro k hk
    rw [h k hk]
    exact ⟨⟨_, _, h5.1⟩, h5.2⟩

theorem witness_GenerationLawsKept : world.generationLaw := by
  constructor
  · exact witness_SlotLawAndFixedLatchKept
  · intro r g h
    obtain ⟨-, rfl⟩ | ⟨-, rfl⟩ | ⟨-, rfl⟩ | ⟨-, rfl⟩ | ⟨-, rfl⟩ := world_records r g h <;>
      simp [GenRecord.sizeLaw, recordOf, blocksFor, Config.pointsPerBlock]
  · have h : ∀ k r, (world.slot k).state.current = some r ↔
      ∃ g ∈ world.record r, g.slot = k ∧ g.state.isCurrent = true := by decide +kernel
    exact h
  · intro r g n h hb
    obtain ⟨-, rfl⟩ | ⟨rfl, rfl⟩ | ⟨-, rfl⟩ | ⟨-, rfl⟩ | ⟨-, rfl⟩ := world_records r g h <;>
      simp [GenRecord.isBuilding, recordOf] at hb ⊢
    exact ⟨0, ⟨6, 1, 0, 3⟩, by decide +kernel⟩
  · have h : ∀ h, ∀ c ∈ world.context h, c.record = 1 ∧ c.slot = 6 := by decide +kernel
    intro i c hc
    obtain ⟨hr, hs⟩ := h i c hc
    rw [hr, hs]
    exact ⟨recordOf 6 1 (.building 20 2000) 2 [1, 2] 0, 20, by decide +kernel, rfl, 2000, rfl⟩
  · intro r g h hb
    obtain ⟨-, rfl⟩ | ⟨rfl, rfl⟩ | ⟨-, rfl⟩ | ⟨rfl, rfl⟩ | ⟨-, rfl⟩ := world_records r g h <;>
      simp [GenRecord.isPending, recordOf] at hb ⊢
    have q : ∃ q ∈ world.proposal 0, q.change = .commit 3 ∧ q.slot = 7 := by decide +kernel
    exact ⟨0, q⟩
  · have h : ∀ e, ∀ q ∈ world.proposal e, q.change = .commit 3 ∧ q.slot = 7 := by decide +kernel
    intro e q r hq hc
    obtain ⟨h1, h2⟩ := h e q hq
    obtain rfl : r = 3 := by rw [h1] at hc; injection hc with hc; exact hc.symm
    rw [h2]
    exact ⟨recordOf 7 5 (.pending 0x3333) 2 [4] 0, by decide +kernel, rfl, 0x3333, rfl⟩
  · intro r g h hb
    obtain ⟨-, rfl⟩ | ⟨rfl, rfl⟩ | ⟨-, rfl⟩ | ⟨rfl, rfl⟩ | ⟨-, rfl⟩ := world_records r g h <;>
      simp [GenState.isSuperseded, recordOf] at hb ⊢
    have h8 : (world.slot 8).state = .retiring (openTo 0x0) := by decide +kernel
    simp [h8]
  · have h : ∀ k, (world.slot k).state.isRetiring = true → ∃ r, ∃ g ∈ world.record r, g.slot = k := by decide +kernel
    exact fun k d hd => h k (by rw [hd]; rfl)
  · have h : ∀ e, ∀ l ∈ world.lease e, ∃ g ∈ world.record l.record, g.slot = l.slot ∧
      (g.state.isCurrent = true ∨ g.state.isSuperseded = true) := by decide +kernel
    exact h
  · have h : ∀ i, world.lane i = none := by decide +kernel
    exact fun i w c hw => absurd hw (by simp [h i])
  · have h : ∀ r, ∀ g ∈ world.record r, g.refCount = world.leasesNaming r + world.capturesOf r := by decide +kernel
    exact fun _ => h
  · decide +kernel
  · have h : ∀ r, ∀ g ∈ world.record r, g.number ≠ 0 := by decide +kernel
    exact h
  · intro r r' g g' h h' hs hn
    obtain ⟨rfl, rfl⟩ | ⟨rfl, rfl⟩ | ⟨rfl, rfl⟩ | ⟨rfl, rfl⟩ | ⟨rfl, rfl⟩ := world_records r g h <;>
      obtain ⟨rfl, rfl⟩ | ⟨rfl, rfl⟩ | ⟨rfl, rfl⟩ | ⟨rfl, rfl⟩ | ⟨rfl, rfl⟩ := world_records r' g' h' <;>
      simp [recordOf] at hs hn ⊢
  · intro h
    exact absurd h (by decide +kernel)

theorem world_rising : world.risingLaw := by
  intro _ _
  have h : ∀ r, ∀ g ∈ world.record r, ∀ ps ∈ g.points world.store, ps.Pairwise (fun a b => a.x.toInt < b.x.toInt) := by
    decide +kernel
  exact fun r g ps hg hp => h r g hg ps hp

/-- For the clause on R1. -/
theorem witness_RisingLawKept : world.blockLaw ∧ world.storeLaw ∧ world.risingLaw :=
  ⟨witness_EveryBlockStaysInOnePlace, test_world_store_canonical, world_rising⟩

/-- A step of the world that keeps record 0, CURRENT, in use, and leaves the shadow in place. -/
theorem witness_GenerationsNeverChange :
    world.generationLaw ∧ world.blockLaw ∧ (look (step world) (fun t => (t.shadow.isSome, t.record 0)))
      = some (true, some (recordOf 5 8 (.current 0x1111) 3 [0] 1))
      ∧ ∀ n, ¬(recordOf 5 8 (.current 0x1111) 3 [0] 1).isBuilding n := by
  refine ⟨witness_GenerationLawsKept, witness_EveryBlockStaysInOnePlace, by decide +kernel, ?_⟩
  rintro n ⟨d, h⟩
  simp [recordOf] at h

/-- Both ways to an adoption: P0's CLOSE_BUILD on slot 6, and P2's APPROVE when P1 has approved. -/
theorem witness_AdoptionNeedsEveryApproval :
    world.sessionLaw ∧ world.generationLaw
      ∧ (look (step { queued world 0 .closeBuild ([0] ++ wordBytes (checksumOf (worldPoints.take 2))) with
          pending := [.closeBuild 0] }) (fun t => (t.record 1).map (·.state.isCurrent))) = some (some true)
      ∧ (world.record 1).map (·.state.isCurrent) = some false
      ∧ (look (step { queued oneLeft 2 .approve [7, 0, 5] with pending := [.approve 2] })
          (fun t => (t.record 3).map (·.state.isCurrent))) = some (some true)
      ∧ (oneLeft.record 3).map (·.state.isCurrent) = some false :=
  ⟨witness_SessionLawKept, witness_GenerationLawsKept, by decide +kernel⟩

end Sys2Proof.Machine.Tests
end

section
/-! Runs of points: where they stand, what a read of a run answers and what a write of a run changes (R2). -/

namespace Sys2Proof.Machine

/-! ### Locations -/

/-- A block list gives sixteen points a location for each of its blocks. -/
theorem exists_locate {blocks : List BlockIndex} {i : Nat} (h : i < 16 * blocks.length) :
    ∃ a, locate blocks i = some a := by
  have hi : i / 16 < blocks.length := by omega
  exact ⟨_, locate_eq_some.2 ⟨blocks[i / 16], List.getElem?_eq_getElem hi, rfl⟩⟩

/-- Two points of one block list without repetition have their bytes apart. -/
theorem locate_apart {blocks : List BlockIndex} (hn : blocks.Nodup) {i j a b : Nat} (hi : locate blocks i = some a)
    (hj : locate blocks j = some b) (hij : i ≠ j) : a + 4 ≤ b ∨ b + 4 ≤ a := by
  obtain ⟨c, hc, rfl⟩ := locate_eq_some.1 hi
  obtain ⟨d, hd, rfl⟩ := locate_eq_some.1 hj
  by_cases hcd : c = d
  · subst hcd
    obtain ⟨hlt, -⟩ := List.getElem?_eq_some_iff.1 hc
    have : i / 16 = j / 16 := (List.getElem?_inj hlt hn).1 (hc.trans hd.symm)
    omega
  · have : c.val ≠ d.val := fun e => hcd (Fin.ext e)
    omega

/-- Points of two block lists that share no block have their bytes apart. -/
theorem locate_apart_of_disjoint {blocks blocks' : List BlockIndex} (hd : blocks.Disjoint blocks') {i j a b : Nat}
    (hi : locate blocks i = some a) (hj : locate blocks' j = some b) : a + 4 ≤ b ∨ b + 4 ≤ a := by
  obtain ⟨c, hc, rfl⟩ := locate_eq_some.1 hi
  obtain ⟨d, hd', rfl⟩ := locate_eq_some.1 hj
  have : c.val ≠ d.val := fun e =>
    hd (List.mem_of_getElem? hc) (Fin.ext e ▸ List.mem_of_getElem? hd')
  omega

/-- A location by the first blocks of a list is one by the list. -/
theorem locate_of_take {blocks : List BlockIndex} {k i a : Nat} (h : locate (blocks.take k) i = some a) :
    locate blocks i = some a := by
  obtain ⟨b, hb, rfl⟩ := locate_eq_some.1 h
  refine locate_eq_some.2 ⟨b, ?_, rfl⟩
  rw [List.getElem?_take] at hb
  split at hb
  · exact hb
  · cases hb

/-! ### Reading a run -/

/-- A run reads as the points at its locations, one by one. -/
theorem readRun_eq_some {m : Memory} {blocks : List BlockIndex} {i n : Nat} {ps : List Point} :
    readRun m blocks i n = some ps ↔
      ps.length = n ∧ ∀ j, j < n → ∃ a, locate blocks (i + j) = some a ∧ ps[j]? = some (readPoint m a) := by
  induction n generalizing i ps with
  | zero => simp [readRun, eq_comm]
  | succ n ih =>
    constructor
    · intro h
      simp only [readRun] at h
      split at h
      · rename_i a qs ha hq
        obtain rfl : readPoint m a :: qs = ps := by simpa using h
        obtain ⟨hl, hp⟩ := ih.1 hq
        refine ⟨by simp [hl], fun j hj => ?_⟩
        cases j with
        | zero => exact ⟨a, ha, rfl⟩
        | succ j =>
          rw [show i + (j + 1) = i + 1 + j by omega]
          exact hp j (by omega)
      · cases h
    · rintro ⟨hl, hp⟩
      obtain ⟨p, qs, rfl⟩ := List.exists_cons_of_length_eq_add_one hl
      obtain ⟨a, ha, hpa⟩ := hp 0 (by omega)
      have hq : readRun m blocks (i + 1) n = some qs := ih.2 ⟨by simpa using hl, fun j hj => by
        rw [show i + 1 + j = i + (j + 1) by omega]
        exact hp (j + 1) (by omega)⟩
      obtain rfl : p = readPoint m a := by simpa using hpa
      simp only [readRun, Nat.add_zero] at ha ⊢
      rw [ha, hq]

/-- A run inside its blocks reads. -/
theorem exists_readRun (m : Memory) {blocks : List BlockIndex} {i n : Nat} (h : i + n ≤ 16 * blocks.length) :
    ∃ ps, readRun m blocks i n = some ps := by
  induction n generalizing i with
  | zero => exact ⟨[], rfl⟩
  | succ n ih =>
    obtain ⟨a, ha⟩ := exists_locate (blocks := blocks) (i := i) (by omega)
    obtain ⟨ps, hps⟩ := ih (i := i + 1) (by omega)
    exact ⟨readPoint m a :: ps, by simp only [readRun, ha, hps]⟩

/-- Two stores that agree at the locations of a run read alike. -/
theorem readRun_congr {m m' : Memory} {blocks : List BlockIndex} {i n : Nat}
    (h : ∀ j a, i ≤ j → j < i + n → locate blocks j = some a → readPoint m' a = readPoint m a) :
    readRun m' blocks i n = readRun m blocks i n := by
  induction n generalizing i with
  | zero => rfl
  | succ n ih =>
    simp only [readRun]
    rw [ih (fun j a hi hj => h j a (by omega) (by omega))]
    cases ha : locate blocks i with
    | none => rfl
    | some a =>
      cases readRun m blocks (i + 1) n with
      | none => rfl
      | some ps => simp only [h i a (Nat.le_refl _) (by omega) ha]

/-- What the first blocks of a list give, the list gives. -/
theorem readRun_of_take {m : Memory} {blocks : List BlockIndex} {k i n : Nat} {ps : List Point}
    (h : readRun m (blocks.take k) i n = some ps) : readRun m blocks i n = some ps := by
  obtain ⟨hl, hp⟩ := readRun_eq_some.1 h
  refine readRun_eq_some.2 ⟨hl, fun j hj => ?_⟩
  obtain ⟨a, ha, hpa⟩ := hp j hj
  exact ⟨a, locate_of_take ha, hpa⟩

/-- A run of `n + k` points is one of `n` points and one of `k` behind it. -/
theorem readRun_add {m : Memory} {blocks : List BlockIndex} {i n k : Nat} {ps : List Point}
    (h : readRun m blocks i (n + k) = some ps) :
    ∃ qs rs, readRun m blocks i n = some qs ∧ readRun m blocks (i + n) k = some rs ∧ ps = qs ++ rs := by
  obtain ⟨hl, hp⟩ := readRun_eq_some.1 h
  refine ⟨ps.take n, ps.drop n, readRun_eq_some.2 ⟨by simp [hl], fun j hj => ?_⟩,
    readRun_eq_some.2 ⟨by simp [hl], fun j hj => ?_⟩, (List.take_append_drop n ps).symm⟩
  · obtain ⟨a, ha, hpa⟩ := hp j (by omega)
    exact ⟨a, ha, by rw [List.getElem?_take, if_pos hj, hpa]⟩
  · obtain ⟨a, ha, hpa⟩ := hp (n + j) (by omega)
    exact ⟨a, by rw [Nat.add_assoc]; exact ha, by rw [List.getElem?_drop, hpa]⟩

/-! ### Writing a run -/

/-- A run inside its blocks can be written. -/
theorem exists_writeRun {blocks : List BlockIndex} {m : Memory} {i : Nat} {ps : List Point}
    (h : i + ps.length ≤ 16 * blocks.length) : ∃ m', writeRun blocks m i ps = some m' := by
  induction ps generalizing m i with
  | nil => exact ⟨m, rfl⟩
  | cons p ps ih =>
    rw [List.length_cons] at h
    obtain ⟨a, ha⟩ := exists_locate (blocks := blocks) (i := i) (by omega)
    simp only [writeRun, ha]
    exact ih (by omega)

/-- A write of a run leaves every byte outside its locations alone (R2). -/
theorem readByte_writeRun_outside {blocks : List BlockIndex} {m m' : Memory} {i : Nat} {ps : List Point}
    (hw : writeRun blocks m i ps = some m') {a : Nat}
    (ha : ∀ j x, i ≤ j → j < i + ps.length → locate blocks j = some x → ¬(x ≤ a ∧ a < x + 4)) :
    readByte m' a = readByte m a := by
  induction ps generalizing m i with
  | nil => rw [← Option.some.inj hw]
  | cons p ps ih =>
    simp only [writeRun] at hw
    split at hw
    · rename_i x hx
      rw [List.length_cons] at ha
      rw [ih hw (fun j y hi hj => ha j y (by omega) (by omega)),
        readByte_writePoint_outside _ _ (ha i x (Nat.le_refl _) (by omega) hx)]
    · cases hw

/-- A write of a run leaves every point apart from its locations alone. -/
theorem readPoint_writeRun_apart {blocks : List BlockIndex} {m m' : Memory} {i : Nat} {ps : List Point}
    (hw : writeRun blocks m i ps = some m') {a : Nat}
    (ha : ∀ j x, i ≤ j → j < i + ps.length → locate blocks j = some x → a + 4 ≤ x ∨ x + 4 ≤ a) :
    readPoint m' a = readPoint m a := by
  have byte (k : Nat) (hk : k < 4) : readByte m' (a + k) = readByte m (a + k) :=
    readByte_writeRun_outside hw (fun j x hi hj hx => by have := ha j x hi hj hx; omega)
  have h0 := byte 0 (by omega)
  rw [Nat.add_zero] at h0
  simp only [readPoint, h0, byte 1 (by omega), byte 2 (by omega), byte 3 (by omega)]

/-- A run just written reads back (R2, R16). -/
theorem readRun_writeRun {blocks : List BlockIndex} {m m' : Memory} {i : Nat} {ps : List Point} (h : Memory.wf m)
    (hn : blocks.Nodup) (hw : writeRun blocks m i ps = some m') : readRun m' blocks i ps.length = some ps := by
  induction ps generalizing m i with
  | nil => rfl
  | cons p ps ih =>
    simp only [writeRun] at hw
    split at hw
    · rename_i a ha
      have first : readPoint m' a = p := by
        rw [readPoint_writeRun_apart hw (fun j x hi hj hx => locate_apart hn ha hx (by omega)),
          readPoint_writePoint_same h]
      simp only [List.length_cons, readRun, ha, ih (writePoint_wf h a p) hw, first]
    · cases hw

/-! ### Rising runs -/

/-- The check of R66 step 5 is the strict rise of the x values. -/
theorem rising_iff {ps : List Point} : rising ps = true ↔ ps.Pairwise (fun a b => a.x.toInt < b.x.toInt) := by
  have trans : IsTrans Point (fun a b => a.x.toInt < b.x.toInt) := ⟨fun _ _ _ => Int.lt_trans⟩
  rw [← List.isChain_iff_pairwise]
  induction ps with
  | nil => simp [rising]
  | cons a ps ih =>
    cases ps with
    | nil => simp [rising]
    | cons b ps => simp [rising, ih]

/-- Points whose last one is followed by a rising run rise on. -/
theorem pairwise_append_of_rising {qs rs : List Point} (hq : qs.Pairwise (fun a b => a.x.toInt < b.x.toInt))
    (hr : rising (qs.drop (qs.length - 1) ++ rs) = true) :
    (qs ++ rs).Pairwise (fun a b => a.x.toInt < b.x.toInt) := by
  obtain rfl | ⟨init, z, rfl⟩ := List.eq_nil_or_concat' qs
  · simpa [rising_iff] using hr
  · rw [show (init ++ [z]).drop ((init ++ [z]).length - 1) = [z] by simp, rising_iff] at hr
    obtain ⟨hz, hrs⟩ := List.pairwise_cons.1 hr
    refine List.pairwise_append.2 ⟨hq, hrs, fun a ha b hb => ?_⟩
    obtain ha | rfl : a ∈ init ∨ a = z := by simpa using ha
    · exact Int.lt_trans ((List.pairwise_append.1 hq).2.2 a ha z (by simp)) (hz b hb)
    · exact hz b hb

end Sys2Proof.Machine
end

section
/-! The moves of the tables. `step_advances` says once what a step can do to the Point Store and to the tables that the
laws of the device speak of: it leaves them as they are, or carries out a few of the moves below, or opens a build, or is
a reset or a start-up. Every law that a step keeps is then a lemma for each move. -/

namespace Sys2Proof.Machine

/-! ### States with the same tables -/

/-- Nothing that the laws of the store and of the generation pool speak of differs: the store, the blocks, the records,
the slots and the contexts are equal, and the proposals, leases and lanes name the same slots, changes and records. -/
structure SameTables (s t : State) : Prop where
  phase : t.phase = s.phase
  store : t.store = s.store
  freeList : t.freeList = s.freeList
  records : t.records = s.records
  slots : t.slots = s.slots
  contexts : t.contexts = s.contexts
  proposals : ∀ e, (t.proposal e).map (fun q => (q.slot, q.change)) = (s.proposal e).map (fun q => (q.slot, q.change))
  leases : ∀ e, (t.lease e).map (fun l => (l.slot, l.record)) = (s.lease e).map (fun l => (l.slot, l.record))
  captures : ∀ i, (t.lane i).bind (·.capture) = (s.lane i).bind (·.capture)

namespace SameTables

/-- What the tables do not hold may change at will: the ports, the sessions, the pointers, the fuses, the time. -/
theorem of_rest (s : State) (armed : Bool) (sessions : Vector SessionEntry 4) (controlPtr : Port) (requests : List Port)
    (lanePtr : Port) (ports : Vector PortState 4) (fuses : Vector FuseCell 9) (burn : Option Burn)
    (shadow : Option Shadow) (ready rstnLow : Bool) (time : Time) (pending : List Instr) :
    SameTables s { s with
      storeLowArmed := armed, sessions := sessions, controlPtr := controlPtr, requests := requests, lanePtr := lanePtr
      ports := ports, fuses := fuses, burn := burn, shadow := shadow, ready := ready, rstnLow := rstnLow, time := time
      pending := pending } :=
  ⟨rfl, rfl, rfl, rfl, rfl, rfl, fun _ => rfl, fun _ => rfl, fun _ => rfl⟩

theorem refl (s : State) : SameTables s s := of_rest ..

theorem trans {s t u : State} (h : SameTables s t) (h' : SameTables t u) : SameTables s u where
  phase := h'.phase.trans h.phase
  store := h'.store.trans h.store
  freeList := h'.freeList.trans h.freeList
  records := h'.records.trans h.records
  slots := h'.slots.trans h.slots
  contexts := h'.contexts.trans h.contexts
  proposals e := (h'.proposals e).trans (h.proposals e)
  leases e := (h'.leases e).trans (h.leases e)
  captures i := (h'.captures i).trans (h.captures i)

theorem symm {s t : State} (h : SameTables s t) : SameTables t s where
  phase := h.phase.symm
  store := h.store.symm
  freeList := h.freeList.symm
  records := h.records.symm
  slots := h.slots.symm
  contexts := h.contexts.symm
  proposals e := (h.proposals e).symm
  leases e := (h.leases e).symm
  captures i := (h.captures i).symm

theorem record {s t : State} (h : SameTables s t) (r : RecordIndex) : t.record r = s.record r := by
  simp only [State.record, h.records]

theorem slot {s t : State} (h : SameTables s t) (k : SlotIndex) : t.slot k = s.slot k := by
  simp only [State.slot, h.slots]

theorem context {s t : State} (h : SameTables s t) (b : Handle) : t.context b = s.context b := by
  simp only [State.context, h.contexts]

theorem isRunning {s t : State} (h : SameTables s t) : t.isRunning = s.isRunning := by
  simp only [State.isRunning, h.phase]

/-- What changes the queue of rows alone. -/
theorem of_pending (s : State) (rest : List Instr) : SameTables s { s with pending := rest } := of_rest ..

theorem of_updPort (s : State) (p : Port) (f : PortState → PortState) : SameTables s (s.updPort p f) := of_rest ..

theorem of_setSession (s : State) (p : Port) (x : SessionEntry) : SameTables s (s.setSession p x) := of_rest ..

theorem of_takeCommand (s : State) (p : Port) : SameTables s (s.takeCommand p) := of_rest ..

theorem of_deliverResponse (s : State) (p : Port) (r : Response) : SameTables s (s.deliverResponse p r) := by
  rw [deliverResponse_frame]; exact of_rest ..

theorem of_deliverEvent (s : State) (p : Port) (e : EventRecord) : SameTables s (s.deliverEvent p e) := by
  rw [deliverEvent_frame]; exact of_rest ..

theorem of_deliverWhere (s : State) (f : Port → Bool) (e : EventRecord) : SameTables s (s.deliverWhere f e) := by
  rw [deliverWhere_frame]; exact of_rest ..

theorem of_announceChange (s : State) (k : SlotIndex) (m : PortSet) (n : GenNumber) :
    SameTables s (s.announceChange k m n) := of_deliverWhere ..

theorem of_resetPort (s : State) (p : Port) : SameTables s (s.resetPort p) := by
  rw [resetPort_frame]; exact of_rest ..

theorem of_signalTeardownDone (s : State) (p : Port) : SameTables s (s.signalTeardownDone p) := of_updPort ..

/-- A proposal replaced by one for the same change of the same slot. -/
theorem of_setProposal {s : State} {e : ProposalIndex} {q q' : Proposal} (h : s.proposal e = some q)
    (hs : q'.slot = q.slot) (hc : q'.change = q.change) : SameTables s (s.setProposal e (some q')) := by
  refine ⟨rfl, rfl, rfl, rfl, rfl, rfl, fun e' => ?_, fun _ => rfl, fun _ => rfl⟩
  rw [State.proposal_setProposal_ite]
  split
  · next he => simp [he, h, hs, hc]
  · rfl

/-- A lease replaced by one on the same record of the same slot. -/
theorem of_setLease {s : State} {e : LeaseIndex} {l l' : Lease} (h : s.lease e = some l)
    (hs : l'.slot = l.slot) (hr : l'.record = l.record) : SameTables s (s.setLease e (some l')) := by
  refine ⟨rfl, rfl, rfl, rfl, rfl, rfl, fun _ => rfl, fun e' => ?_, fun _ => rfl⟩
  rw [State.lease_setLease_ite]
  split
  · next he => simp [he, h, hs, hr]
  · rfl

/-- A lane's working record replaced where neither the old one nor the new one has a capture. -/
theorem of_setLane {s : State} {i : LaneIndex} {x : Option LaneWork} (h : (s.lane i).bind (·.capture) = none)
    (hx : x.bind (·.capture) = none) : SameTables s (s.setLane i x) := by
  refine ⟨rfl, rfl, rfl, rfl, rfl, rfl, fun _ => rfl, fun _ => rfl, fun j => ?_⟩
  rw [State.lane_setLane_ite]
  split
  · next hj => rw [hj, h, hx]
  · rfl

/-- The end of a port's session in the proposals (R98, R99). -/
theorem of_endSession (s : State) (p : Port) (n : Session) :
    SameTables s { s with proposals := s.proposals.map (fun q => q.map (Proposal.endSession p n)) } := by
  refine ⟨rfl, rfl, rfl, rfl, rfl, rfl, fun e => ?_, fun _ => rfl, fun _ => rfl⟩
  simp only [State.proposal, Fin.getElem_fin, Vector.getElem_map, Option.map_map]
  rfl

end SameTables

/-! ### The moves -/

/-- What one claim of the Table Manager or of a lane does to the tables at a time. -/
inductive Move : State → State → Prop
  | quiet {s t : State} (h : SameTables s t) : Move s t
  /-- DEFINE_TABLE (R50). -/
  | define {s : State} {k : SlotIndex} (d : TableDef) (h : (s.slot k).state = .vacant) :
      Move s (s.setSlot k { state := .defined d, nextNumber := 1, build := none, proposal := none, fixedLatch := false })
  | endLease (s : State) (e : LeaseIndex) : Move s (s.removeLease e)
  | endBuild (s : State) (h : Handle) : Move s (s.discardBuild h)
  | restart (s : State) (r : RecordIndex) : Move s (s.restartIdle r)
  /-- APPEND_POINTS (R67). -/
  | append {s : State} {r : RecordIndex} {g : GenRecord} {declared : Nat} {d : Time} {previous ps : List Point}
      {m : Memory} (hr : s.record r = some g) (hg : g.state = .building declared d)
      (hn : g.pointCount + ps.length ≤ declared)
      (hp : readRun s.store g.blocks (g.pointCount - 1) (min g.pointCount 1) = some previous)
      (hx : rising (previous ++ ps) = true) (hw : writeRun g.blocks s.store g.pointCount ps = some m) :
      Move s ({ s with store := m }.setRecord r (some { g with pointCount := g.pointCount + ps.length }))
  /-- CLOSE_BUILD (R70, R71). -/
  | close {s : State} {h : Handle} {b : BuildContext} {g : GenRecord} (c : Word) {p : Port} (n : Session)
      (hb : s.context h = some b) (hr : s.record b.record = some g) (hn : 2 ≤ g.pointCount)
      (he : needsEntry (s.maskOf b.slot (·.approvers)) p = true → s.freeProposalIndex ≠ none) :
      Move s ((s.finishBuild h b g c).openChange b.slot (.commit b.record) p n).1
  /-- PROPOSE_RETIRE (R53). -/
  | retire {s : State} {k : SlotIndex} {d : TableDef} {p : Port} (n : Session)
      (hs : (s.slot k).state = .defined d ∨ ∃ r, (s.slot k).state = .live d r) (hl : (s.slot k).fixedLatch = false)
      (hb : (s.slot k).build = none) (hp : (s.slot k).proposal = none)
      (he : needsEntry (s.maskOf k (·.approvers)) p = true → s.freeProposalIndex ≠ none) :
      Move s (s.openChange k .retire p n).1
  /-- A proposal resolves (R90). -/
  | resolve (s : State) (e : ProposalIndex) {o : ProposalOutcome} (ho : o ≠ .pending) : Move s (s.resolve e o)
  /-- HOLD (R105). -/
  | hold {s : State} {e : LeaseIndex} {l : Lease} {d : TableDef} (hs : (s.slot l.slot).state = .live d l.record)
      (he : s.lease e = none) : Move s ((s.setLease e (some l)).raiseReference l.record)
  /-- A capture (R28) of a record that a slot or a lease names. -/
  | capture {s : State} {i : LaneIndex} {c : Capture} (w : LaneWork) (hi : (s.lane i).bind (·.capture) = none)
      (hc : (∃ k, (s.slot k).state.current = some c.record) ∨ ∃ e l, s.lease e = some l ∧ l.record = c.record) :
      Move s ((s.raiseReference c.record).setLane i (some { w with capture := some c }))
  /-- The reference of a lookup in flight is released (R38). -/
  | release {s : State} {i : LaneIndex} {c : Capture} (hi : (s.lane i).bind (·.capture) = some c) :
      Move s ((s.dropReference c.record).setLane i none)

/-- Some moves, one after another. -/
abbrev Moves : State → State → Prop := Relation.ReflTransGen Move

/-- OPEN_BUILD (R64), with what stands before it and after it. It is no `Move`, so that along `Moves` a FREE record stays
FREE. -/
inductive OpensBuild (s t : State) : Prop
  | intro (u : State) {p : Port} {n : Session} {a : OpenArgs} {h : Handle} {r : RecordIndex} {d : TableDef}
      (before : SameTables s u)
      (hs : (u.slot a.slot).state = .defined d ∨ ∃ r, (u.slot a.slot).state = .live d r)
      (hl : (u.slot a.slot).fixedLatch = false) (hb : (u.slot a.slot).build = none)
      (hp : (u.slot a.slot).proposal = none) (hh : u.context h = none) (hr : u.record r = none)
      (hk : blocksFor a.declared ≤ u.freeList.length) (h2 : 2 ≤ a.declared) (hm : a.declared ≤ 1024)
      (after : SameTables (u.openBuild p n a h r) t)

/-- What the claims of one step do to the tables. -/
def Carries (s t : State) : Prop := Moves s t ∨ OpensBuild s t

theorem Carries.of_moves {s t : State} (h : Moves s t) : Carries s t := .inl h

theorem Carries.of_move {s t : State} (h : Move s t) : Carries s t := .inl (.single h)

theorem Carries.of_sameTables {s t : State} (h : SameTables s t) : Carries s t := .of_move (.quiet h)

theorem Carries.refl (s : State) : Carries s s := .inl .refl

theorem Carries.after {s t u : State} (h : SameTables s t) (h' : Carries t u) : Carries s u := by
  obtain h' | ⟨v, hb, h1, h2, h3, h4, h5, h6, h7, h8, h9, ha⟩ := h'
  · exact .inl (.head (.quiet h) h')
  · exact .inr ⟨v, h.trans hb, h1, h2, h3, h4, h5, h6, h7, h8, h9, ha⟩

theorem Carries.before {s t u : State} (h : Carries s t) (h' : SameTables t u) : Carries s u := by
  obtain h | ⟨v, hb, h1, h2, h3, h4, h5, h6, h7, h8, h9, ha⟩ := h
  · exact .inl (.tail h (.quiet h'))
  · exact .inr ⟨v, hb, h1, h2, h3, h4, h5, h6, h7, h8, h9, ha.trans h'⟩

/-- The teardown of a session: leases, then builds, then approvals (R122). -/
theorem teardown_moves (s : State) (p : Port) (n : Session) : Moves s (s.teardown p n) := by
  have leases : Moves s ((s.leasesOf p).foldl State.removeLease s) :=
    foldl_induction (Moves s) _ _ s .refl (fun t e _ h => h.tail (.endLease t e))
  have builds := foldl_induction (Moves s) State.discardBuild
    (((s.leasesOf p).foldl State.removeLease s).buildsOf p n) _ leases (fun t h _ ht => ht.tail (.endBuild t h))
  exact builds.tail (.quiet (.of_endSession _ p n))

end Sys2Proof.Machine
end

section
/-! What states with the same tables share, the law of the generation pool among it. -/

namespace Sys2Proof.Machine

namespace SameTables

variable {s t : State}

theorem proposal_some (h : SameTables s t) {e : ProposalIndex} {q : Proposal} (hq : t.proposal e = some q) :
    ∃ q', s.proposal e = some q' ∧ q'.slot = q.slot ∧ q'.change = q.change := by
  have := h.proposals e
  rw [hq, Option.map_some, eq_comm, Option.map_eq_some_iff] at this
  obtain ⟨q', hq', he⟩ := this
  exact ⟨q', hq', congrArg Prod.fst he, congrArg Prod.snd he⟩

theorem lease_some (h : SameTables s t) {e : LeaseIndex} {l : Lease} (hl : t.lease e = some l) :
    ∃ l', s.lease e = some l' ∧ l'.slot = l.slot ∧ l'.record = l.record := by
  have := h.leases e
  rw [hl, Option.map_some, eq_comm, Option.map_eq_some_iff] at this
  obtain ⟨l', hl', he⟩ := this
  exact ⟨l', hl', congrArg Prod.fst he, congrArg Prod.snd he⟩

theorem leasesNaming (h : SameTables s t) (r : RecordIndex) : t.leasesNaming r = s.leasesNaming r := by
  have names (e : LeaseIndex) : (t.lease e).any (fun l => l.record == r) = (s.lease e).any (fun l => l.record == r) := by
    have := congrArg (Option.any (fun x => x.2 == r)) (h.leases e)
    simpa only [Option.any_map, Function.comp_def] using this
  simp only [State.leasesNaming, State.leasesWhere, names]

theorem capturesOf (h : SameTables s t) (r : RecordIndex) : t.capturesOf r = s.capturesOf r := by
  simp only [State.capturesOf, h.captures]

theorem slotLaw (h : SameTables s t) (hs : s.slotLaw) : t.slotLaw where
  build k b := by simpa only [h.slot, h.context] using hs.build k b
  proposal k e := by
    rw [h.slot, hs.proposal]
    constructor
    · rintro ⟨q, hq, rfl⟩
      obtain ⟨q', hq', he, -⟩ := h.symm.proposal_some hq
      exact ⟨q', hq', he⟩
    · rintro ⟨q, hq, rfl⟩
      obtain ⟨q', hq', he, -⟩ := h.proposal_some hq
      exact ⟨q', hq', he⟩
  notBoth k := by simpa only [h.slot] using hs.notBoth k
  vacant k := by simpa only [h.slot] using hs.vacant k
  retiring k := by simpa only [h.slot] using hs.retiring k
  latched k := by simpa only [h.slot] using hs.latched k

end SameTables

/-- Nothing is in execution and no lane serves a lookup, as between the assertion of a reset and the end of the start-up. -/
def State.idle (s : State) : Prop := (∀ p, (s.port p).inExec = none) ∧ ∀ i, s.lane i = none

/-- The law of the generation pool speaks of the tables, and of the ports and lanes while the part does not run. -/
theorem SameTables.generationLaw {s t : State} (h : SameTables s t) (hi : t.isRunning = true ∨ (s.idle → t.idle))
    (hs : s.generationLaw) : t.generationLaw where
  slots := h.slotLaw hs.slots
  sizes r := by simpa only [h.record] using hs.sizes r
  current k r := by simpa only [h.record, h.slot] using hs.current k r
  building r g d := by simpa only [h.record, h.context] using hs.building r g d
  context b c := by simpa only [h.record, h.context] using hs.context b c
  pending r g hr hp := by
    obtain ⟨e, q, hq, hc, hk⟩ := hs.pending r g (h.record r ▸ hr) hp
    obtain ⟨q', hq', he, hc'⟩ := h.symm.proposal_some hq
    exact ⟨e, q', hq', hc'.trans hc, he.trans hk⟩
  commit e q r hq hc := by
    obtain ⟨q', hq', he, hc'⟩ := h.proposal_some hq
    obtain ⟨g, hr, hk, hp⟩ := hs.commit e q' r hq' (hc'.trans hc)
    exact ⟨g, h.record r ▸ hr, hk.trans he, hp⟩
  superseded r g := by simpa only [h.record, h.slot] using hs.superseded r g
  retiring k d := by simpa only [h.record, h.slot] using hs.retiring k d
  leased e l hl := by
    obtain ⟨l', hl', hk, hr⟩ := h.lease_some hl
    obtain ⟨g, hg, hs', hm⟩ := hs.leased e l' hl'
    exact ⟨g, by rw [h.record, ← hr, hg], hs'.trans hk, hm⟩
  captured i w c hw hc := by
    have hb : (s.lane i).bind (·.capture) = some c := by rw [← h.captures, hw]; exact hc
    obtain ⟨w', hw', hc'⟩ := Option.bind_eq_some_iff.1 hb
    simpa only [h.record] using hs.captured i w' c hw' hc'
  counted hr r g := by
    simpa only [h.record, h.leasesNaming, h.capturesOf] using hs.counted (h.isRunning ▸ hr) r g
  numbered k := by simpa only [h.slot] using hs.numbered k
  numbers r := by simpa only [h.record] using hs.numbers r
  distinct r r' := by simpa only [h.record] using hs.distinct r r'
  atRest hr := by
    obtain hi | hi := hi
    · exact absurd (hi.symm.trans hr) (by decide)
    · exact hi (hs.atRest (h.isRunning ▸ hr))

/-! ### What the laws give a command -/

/-- A record has a block for each of its points (R6). -/
theorem GenRecord.sizeLaw.points_le {g : GenRecord} (h : g.sizeLaw) : g.pointCount ≤ 16 * g.blocks.length := by
  unfold GenRecord.sizeLaw at h
  split at h
  · obtain ⟨-, -, hn, hb⟩ := h
    rw [hb, blocksFor, Config.pointsPerBlock]
    omega
  · obtain ⟨-, -, hb⟩ := h
    rw [hb, blocksFor, Config.pointsPerBlock]
    omega
  · obtain ⟨-, -, hb⟩ := h
    rw [hb, blocksFor, Config.pointsPerBlock]
    omega
  · obtain ⟨-, -, hb⟩ := h
    rw [hb, blocksFor, Config.pointsPerBlock]
    omega

/-- A BUILDING record has a block for each point declared (R5). -/
theorem GenRecord.sizeLaw.declared_le {g : GenRecord} {declared : Nat} {d : Time} (h : g.sizeLaw)
    (hg : g.state = .building declared d) : declared ≤ 16 * g.blocks.length := by
  simp only [GenRecord.sizeLaw, hg] at h
  obtain ⟨-, -, -, hb⟩ := h
  rw [hb, blocksFor, Config.pointsPerBlock]
  omega

/-- A record that a lookup may capture has at least two points (R7). -/
theorem GenRecord.sizeLaw.two_le {g : GenRecord} (h : g.sizeLaw) (hm : g.mayBeNamed) : 2 ≤ g.pointCount := by
  unfold GenRecord.mayBeNamed at hm
  unfold GenRecord.sizeLaw at h
  split at h
  · rename_i hg
    simp [hg, GenState.isCurrent, GenState.isSuperseded] at hm
  all_goals exact h.1

/-- All points of a record have a location. -/
theorem State.generationLaw.exists_points {s : State} (hs : s.generationLaw) {r : RecordIndex} {g : GenRecord}
    (hr : s.record r = some g) : ∃ ps, g.points s.store = some ps :=
  exists_readRun _ (by have := (hs.sizes r g hr).points_le; omega)

theorem buildOf_eq_some {s : State} {p : Port} {h : Handle} {b : BuildContext} (hb : s.buildOf p h = some b) :
    s.context h = some b ∧ b.owner = p ∧ s.isUnder p b.session = true := by
  obtain ⟨hc, ho⟩ := Option.filter_eq_some_iff.1 hb
  rw [Bool.and_eq_true, beq_iff_eq] at ho
  exact ⟨hc, ho⟩

/-- The record that a READ_POINTS selects is in use. -/
theorem State.generationLaw.selectRecord {s : State} (hs : s.generationLaw) {p : Port} {k : SlotIndex} {sel : Selector}
    {r : RecordIndex} (h : s.selectRecord p k sel = .ok r) : ∃ g, s.record r = some g := by
  unfold State.selectRecord at h
  cases sel with
  | current =>
    dsimp only at h
    split at h
    · rename_i d r' hk
      split at h
      · obtain rfl : r' = r := by simpa using h
        obtain ⟨g, hg, -⟩ := (hs.current k r').1 (by rw [hk]; rfl)
        exact ⟨g, hg⟩
      · cases h
    all_goals cases h
  | leased =>
    dsimp only at h
    split at h
    · cases h
    · split at h
      · cases h
      · split at h
        · rename_i e l hl
          obtain rfl : l.record = r := by simpa using h
          obtain ⟨g, hg, -⟩ := hs.leased e l (callersLease_eq_some hl).1
          exact ⟨g, hg⟩
        · cases h
  | pending =>
    dsimp only at h
    split at h
    · cases h
    · split at h
      · cases h
      · split at h
        · rename_i r' hc
          obtain rfl : r' = r := by simpa using h
          obtain ⟨q, hq, hc⟩ := Option.map_eq_some_iff.1 hc
          obtain ⟨e, -, he⟩ := Option.bind_eq_some_iff.1 hq
          obtain ⟨g, hg, -⟩ := hs.commit e q r' he hc
          exact ⟨g, hg⟩
        all_goals cases h

end Sys2Proof.Machine
end

section
/-! What each control command does to the tables: moves, or the opening of a build. A fault comes only where the law of
the generation pool does not hold (log 14). -/

namespace Sys2Proof.Machine

/-- The command carried out on `s` comes to moves of its tables, and faults only outside the law of the generation
pool. -/
def CommandResult.Carried (s : State) : CommandResult → Prop
  | .answer u _ _ | .handOver u => Carries s u
  | .fault _ => ¬ s.generationLaw

theorem refuse_carried (s : State) (st : Status) : (refuse s st).Carried s := Carries.refl s

/-- A check that refuses (R140). -/
theorem CommandResult.Carried.of_check {s : State} {c : Prop} [Decidable c] {st : Status} {x : CommandResult}
    (h : ¬ c → x.Carried s) : (if c then refuse s st else x).Carried s := by
  split
  · exact refuse_carried ..
  · exact h ‹_›

/-! ### Sessions -/

theorem attachBody_carried (p : Port) (f : Frame) (s : State) : (attachBody p f s).Carried s := by
  unfold attachBody
  split
  · exact refuse_carried ..
  · exact refuse_carried ..
  · exact Carries.of_sameTables (.of_setSession ..)

theorem detachBody_carried (p : Port) (f : Frame) (s : State) : (detachBody p f s).Carried s := by
  unfold detachBody
  split
  · exact refuse_carried ..
  · exact (Carries.after (.of_setSession ..) (.of_moves (teardown_moves ..))).before (.of_setSession ..)

/-! ### Slots -/

theorem defineTableBody_carried (p : Port) (f : Frame) (s : State) : (defineTableBody p f s).Carried s := by
  unfold defineTableBody
  refine .of_check fun _ => ?_
  split
  · exact refuse_carried ..
  · refine .of_check fun _ => .of_check fun hv => .of_check fun _ => ?_
    exact Carries.of_move (.define _ (not_not.1 hv))

theorem tableInfoBody_carried (p : Port) (f : Frame) (s : State) : (tableInfoBody p f s).Carried s := by
  unfold tableInfoBody
  refine .of_check fun _ => ?_
  split
  · exact refuse_carried ..
  · exact Carries.refl s

/-- The approver mask of a slot with a definition. -/
theorem maskOf_of_definition {s : State} {k : SlotIndex} {d : TableDef} (h : (s.slot k).state.definition = some d)
    (f : TableDef → PortSet) : s.maskOf k f = f d := by
  simp only [State.maskOf, h]

theorem proposeRetireBody_carried (p : Port) (f : Frame) (s : State) : (proposeRetireBody p f s).Carried s := by
  have opening (n : Session) (k : SlotIndex) (d : TableDef)
      (hs : (s.slot k).state = .defined d ∨ ∃ r, (s.slot k).state = .live d r) :
      (if !PortSet.has d.builders p then refuse s .noAccess
        else if (s.slot k).fixedLatch then refuse s .slotFixed
        else if (s.slot k).build.isSome then refuse s .buildOpen
        else if (s.slot k).proposal.isSome then refuse s .proposalOpen
        else if needsEntry d.approvers p && s.freeProposalIndex.isNone then refuse s .proposalFull
        else .answer (s.openChange k .retire p n).1 .ok [(s.openChange k .retire p n).2.code]).Carried s := by
    refine .of_check fun _ => .of_check fun hl => .of_check fun hb => .of_check fun hp => .of_check fun he => ?_
    have hd : (s.slot k).state.definition = some d := by obtain h | ⟨r, h⟩ := hs <;> rw [h] <;> rfl
    refine Carries.of_move (.retire n hs (by simpa using hl) (by simpa using hb) (by simpa using hp) fun hn hf => he ?_)
    rw [maskOf_of_definition hd] at hn
    simp [hn, hf]
  unfold proposeRetireBody
  split
  · exact refuse_carried ..
  · split
    · exact refuse_carried ..
    · split
      · exact refuse_carried ..
      · exact refuse_carried ..
      · exact opening _ _ _ (.inl ‹_›)
      · exact opening _ _ _ (.inr ⟨_, ‹_›⟩)

/-! ### The Point Store -/

theorem storeInfoBody_carried (f : Frame) (s : State) : (storeInfoBody f s).Carried s := Carries.refl s

theorem readPointsBody_carried (p : Port) (f : Frame) (s : State) : (readPointsBody p f s).Carried s := by
  unfold readPointsBody
  refine .of_check fun _ => ?_
  split
  · exact refuse_carried ..
  · split
    · exact refuse_carried ..
    · rename_i a _ _ r hr
      split
      · intro law
        obtain ⟨g, hg⟩ := law.selectRecord hr
        simp_all
      · rename_i g hg
        refine .of_check fun hn => ?_
        split
        · intro law
          obtain ⟨ps, hps⟩ := exists_readRun s.store (blocks := g.blocks) (i := a.index) (n := a.count)
            (by have := (law.sizes r g hg).points_le; omega)
          simp_all
        · exact Carries.refl s

/-! ### Builds -/

/-- A declared count in range (R64). -/
theorem declaredOf_eq_some {w : Word} {n : Nat} (h : declaredOf w = some n) : 2 ≤ n ∧ n ≤ 1024 := by
  unfold declaredOf at h
  split at h
  · obtain rfl := Option.some.inj h
    assumption
  · cases h

theorem openArgs_declared {bs : List Byte} {a : OpenArgs} (h : openArgs bs = some a) :
    2 ≤ a.declared ∧ a.declared ≤ 1024 := by
  unfold openArgs at h
  split at h
  · split at h
    · rename_i hd _ _
      obtain rfl := Option.some.inj h
      exact declaredOf_eq_some hd
    · cases h
  · cases h

theorem openBuildBody_carried (p : Port) (f : Frame) (s : State) : (openBuildBody p f s).Carried s := by
  have opening (n : Session) (a : OpenArgs) (ha : openArgs f.payload = some a) (d : TableDef)
      (hs : (s.slot a.slot).state = .defined d ∨ ∃ r, (s.slot a.slot).state = .live d r) :
      (if !PortSet.has d.builders p then refuse s .noAccess
        else if (s.slot a.slot).fixedLatch then refuse s .slotFixed
        else if (s.slot a.slot).build.isSome then refuse s .buildOpen
        else if (s.slot a.slot).proposal.isSome then refuse s .proposalOpen
        else match s.freeHandle with
        | none => refuse s .noContext
        | some h =>
          match s.freeRecordIndex with
          | none => refuse s .noRecord
          | some r =>
            if s.freeList.length < blocksFor a.declared then refuse s .noSpace
            else
              .answer (s.openBuild p n a h r) .ok
                ([BitVec.ofNat 8 h.val] ++ wordBytes (s.newNumber a.slot))).Carried s := by
    refine .of_check fun _ => .of_check fun hl => .of_check fun hb => .of_check fun hp => ?_
    split
    · exact refuse_carried ..
    · rename_i h hh
      split
      · exact refuse_carried ..
      · rename_i r hr
        refine .of_check fun hk => .inr ?_
        exact ⟨s, .refl s, hs, by simpa using hl, by simpa using hb, by simpa using hp, (freeHandle_eq_some.1 hh).1,
          (freeRecordIndex_eq_some.1 hr).1, Nat.le_of_not_lt hk, (openArgs_declared ha).1, (openArgs_declared ha).2,
          .refl _⟩
  unfold openBuildBody
  split
  · exact refuse_carried ..
  · split
    · exact refuse_carried ..
    · split
      · exact refuse_carried ..
      · exact refuse_carried ..
      · exact opening _ _ ‹_› _ (.inl ‹_›)
      · exact opening _ _ ‹_› _ (.inr ⟨_, ‹_›⟩)

theorem appendPointsBody_carried (p : Port) (f : Frame) (s : State) : (appendPointsBody p f s).Carried s := by
  unfold appendPointsBody
  refine .of_check fun _ => ?_
  split
  · exact refuse_carried ..
  · rename_i h ps _
    split
    · exact refuse_carried ..
    · rename_i b hb
      have hc := (buildOf_eq_some hb).1
      split
      · intro law
        obtain ⟨g, n, hg, -⟩ := law.context h b hc
        simp_all
      · rename_i g hg
        have building (law : s.generationLaw) : ∃ n d, g.state = .building n d := by
          obtain ⟨g', n, hg', -, d, hs⟩ := law.context h b hc
          exact ⟨n, d, by rw [← hs, Option.some.inj (hg.symm.trans hg')]⟩
        split
        · intro law
          obtain ⟨n, d, hs⟩ := building law
          simp_all
        · intro law
          obtain ⟨n, d, hs⟩ := building law
          simp_all
        · intro law
          obtain ⟨n, d, hs⟩ := building law
          simp_all
        · rename_i declared d hs
          dsimp only
          split
          · exact Carries.of_move (.restart ..)
          · rename_i hn
            have fits (law : s.generationLaw) : g.pointCount + ps.length ≤ 16 * g.blocks.length :=
              Nat.le_trans (Nat.le_of_not_lt hn) ((law.sizes _ g hg).declared_le hs)
            split
            · intro law
              obtain ⟨qs, hqs⟩ := exists_readRun s.store (blocks := g.blocks) (i := g.pointCount - 1)
                (n := min g.pointCount 1) (by have := fits law; omega)
              simp_all
            · rename_i previous hprev
              split
              · exact Carries.of_move (.restart ..)
              · rename_i hx
                split
                · intro law
                  obtain ⟨m, hm⟩ := exists_writeRun (m := s.store) (fits law)
                  simp_all
                · rename_i m hm
                  exact .of_moves (.tail (.single (.append hg hs (Nat.le_of_not_lt hn) hprev (by simpa using hx) hm))
                    (.restart ..))

theorem closeBuildBody_carried (p : Port) (f : Frame) (s : State) : (closeBuildBody p f s).Carried s := by
  unfold closeBuildBody
  split
  · exact refuse_carried ..
  · split
    · exact refuse_carried ..
    · split
      · exact refuse_carried ..
      · rename_i b hb
        have hc := (buildOf_eq_some hb).1
        split
        · intro law
          obtain ⟨g, n, hg, -⟩ := law.context _ b hc
          simp_all
        · rename_i g hg
          split
          · exact Carries.of_move (.restart ..)
          · rename_i hn
            split
            · intro law
              obtain ⟨ps, hps⟩ := law.exists_points hg
              simp_all
            · rename_i ps hps
              split
              · exact Carries.of_move (.endBuild ..)
              · split
                · exact Carries.of_move (.restart ..)
                · rename_i he
                  exact Carries.of_move (.close _ _ hc hg (Nat.le_of_not_lt hn) fun h hf => he (by simp [h, hf]))

theorem cancelBuildBody_carried (p : Port) (f : Frame) (s : State) : (cancelBuildBody p f s).Carried s := by
  unfold cancelBuildBody
  refine .of_check fun _ => ?_
  split
  · exact refuse_carried ..
  · split
    · exact refuse_carried ..
    · exact Carries.of_move (.endBuild ..)

/-! ### Proposals -/

/-- The proposal that the checks of R85 pass is open. -/
theorem approverChecks_eq_ok {s : State} {p : Port} {bs : List Byte} {n : Session} {e : ProposalIndex} {q : Proposal}
    (h : s.approverChecks p bs = .ok (n, e, q)) : s.proposal e = some q := by
  unfold State.approverChecks at h
  repeat' split at h
  all_goals cases h
  assumption

/-- An approval leaves what the proposal is for as it is. -/
theorem approve_slot_change (q : Proposal) (p : Port) (n : Session) :
    (q.approve p n).slot = q.slot ∧ (q.approve p n).change = q.change := by
  unfold Proposal.approve
  split <;> exact ⟨rfl, rfl⟩

theorem approveBody_carried (p : Port) (f : Frame) (s : State) : (approveBody p f s).Carried s := by
  unfold approveBody
  split
  · exact refuse_carried ..
  · rename_i n e q h
    have approved : SameTables s (s.setProposal e (some (q.approve p n))) :=
      .of_setProposal (approverChecks_eq_ok h) (approve_slot_change q p n).1 (approve_slot_change q p n).2
    dsimp only
    split
    · exact Carries.after approved (.of_move (.resolve _ e (by decide)))
    · exact Carries.of_sameTables approved

theorem vetoBody_carried (p : Port) (f : Frame) (s : State) : (vetoBody p f s).Carried s := by
  unfold vetoBody
  split
  · exact refuse_carried ..
  · exact Carries.of_move (.resolve _ _ (by decide))

theorem withdrawBody_carried (p : Port) (f : Frame) (s : State) : (withdrawBody p f s).Carried s := by
  unfold withdrawBody
  refine .of_check fun _ => ?_
  split
  · exact refuse_carried ..
  · split
    · exact refuse_carried ..
    · split
      · exact refuse_carried ..
      · refine .of_check fun _ => ?_
        exact Carries.of_move (.resolve _ _ (by decide))

/-! ### Leases -/

theorem holdBody_carried (p : Port) (f : Frame) (s : State) : (holdBody p f s).Carried s := by
  unfold holdBody
  split
  · exact refuse_carried ..
  · split
    · exact refuse_carried ..
    · split
      · exact refuse_carried ..
      · exact refuse_carried ..
      · exact refuse_carried ..
      · rename_i k _ _ d r hk
        refine .of_check fun _ => .of_check fun _ => .of_check fun _ => ?_
        split
        · exact refuse_carried ..
        · rename_i e he
          exact Carries.of_move (.hold (l := { slot := k, record := r, .. }) hk (freeLeaseIndex_eq_some.1 he).1)

theorem renewBody_carried (p : Port) (f : Frame) (s : State) : (renewBody p f s).Carried s := by
  unfold renewBody
  refine .of_check fun _ => ?_
  split
  · exact refuse_carried ..
  · split
    · exact refuse_carried ..
    · rename_i e l h
      exact Carries.of_sameTables (.of_setLease (callersLease_eq_some h).1 rfl rfl)

theorem releaseBody_carried (p : Port) (f : Frame) (s : State) : (releaseBody p f s).Carried s := by
  unfold releaseBody
  refine .of_check fun _ => ?_
  split
  · exact refuse_carried ..
  · split
    · exact refuse_carried ..
    · exact Carries.of_move (.endLease ..)

/-! ### Option fuses -/

theorem readOptionsBody_carried (f : Frame) (s : State) : (readOptionsBody f s).Carried s := Carries.refl s

theorem startBurn_sameTables (s : State) (x : FuseField) (v : Word) (p : Port) : SameTables s (s.startBurn x v p) :=
  .of_rest ..

theorem programOptionBody_carried (p : Port) (f : Frame) (s : State) : (programOptionBody p f s).Carried s := by
  unfold programOptionBody
  refine .of_check fun _ => ?_
  split
  · exact refuse_carried ..
  · refine .of_check fun _ => .of_check fun _ => .of_check fun _ => .of_check fun _ => ?_
    exact Carries.of_sameTables (startBurn_sameTables ..)

theorem closeProvisioningBody_carried (p : Port) (f : Frame) (s : State) :
    (closeProvisioningBody p f s).Carried s := by
  unfold closeProvisioningBody
  refine .of_check fun _ => .of_check fun _ => .of_check fun _ => .of_check fun _ => ?_
  exact Carries.of_sameTables (startBurn_sameTables ..)

end Sys2Proof.Machine
end

section
/-! What a step does. `step_advances` is the inversion of `step` for the store and the tables: the claims that a running
part takes come to moves, the link and the lines leave the tables alone, and the resets and start-ups stand for
themselves. -/

namespace Sys2Proof.Machine

/-- The part runs, or has a command in execution: where the tables may be worked on. -/
def State.engaged (s : State) : Prop := s.isRunning = true ∨ ∃ p, (s.port p).inExec ≠ none

theorem running_of_takesClaims {s : State} (h : s.takesClaims = true) : s.isRunning = true := by
  simp only [State.takesClaims, Bool.and_eq_true] at h
  exact h.1

theorem running_of_takesExpiries {s : State} (h : s.takesExpiries = true) : s.isRunning = true := by
  simp only [State.takesExpiries, Bool.and_eq_true] at h
  exact running_of_takesClaims h.1

theorem running_of_takesTeardowns {s : State} (h : s.takesTeardowns = true) : s.isRunning = true := by
  simp only [State.takesTeardowns, Bool.and_eq_true] at h
  exact running_of_takesExpiries h.1

/-- What one step does. -/
inductive Advance (s : State) : State → Prop
  /-- A claim of the Table Manager or of a lane. -/
  | works {t : State} (he : s.engaged) (h : Carries s t) : Advance s t
  /-- The link, a line, a tick. -/
  | rests {t : State} (h : SameTables s t) (hi : s.idle → t.idle) : Advance s t
  /-- RSTN falls. -/
  | asserts : Advance s { s.enterReset (.inReset s.assertedKind) with rstnLow := true }
  /-- RSTN rises, and a start-up begins. -/
  | releases (k : ResetKind) (h : s.phase = .inReset k) : Advance s ({ s with rstnLow := false }.beginStartUp k)
  /-- Power comes on, with RSTN low or not. -/
  | powersOn (x : Phase) (time : Time) (h : x = .inReset .cold ∨ x = .startUp .cold) :
      Advance s { s.enterReset x with shadow := none, store := [], time := time }
  | coldStarts (h : s.phase = .startUp .cold) : Advance s s.coldStart
  | warmStarts (h : s.phase = .startUp .warm) : Advance s s.warmStart

theorem Advance.refl (s : State) : Advance s s := .rests (.refl s) id

theorem Advance.of_running {s t : State} (hr : s.isRunning = true) (h : SameTables s t) : Advance s t :=
  .works (.inl hr) (.of_sameTables h)

/-- How a step may end: it completes, or faults in the midst of moves, outside the law of the generation pool. -/
def Ends (s : State) : Host.Outcome State Fault Refusal → Prop
  | .next t => Advance s t
  | .fault _ => s.engaged ∧ ∃ u, Carries s u ∧ ¬ u.generationLaw
  | .refused _ => False

/-! ### Control commands -/

/-- The taking of a control command leaves the tables alone, in a part that is engaged. -/
theorem claimCommand_sameTables {s t : State} {p : Port} {k : CommandKind} {f : Frame}
    (h : s.claimCommand p k = some (f, t)) : s.engaged ∧ SameTables s t := by
  obtain ⟨-, ⟨-, ⟨e, he, -⟩, rfl⟩ | ⟨hn, rfl⟩⟩ := claimCommand_cases h
  · exact ⟨.inr ⟨p, by simp [he]⟩, .refl _⟩
  · exact ⟨.inl (running_of_takesTeardowns (takesCommand_iff.1 (nextCommand_eq_some hn).1).1), .of_takeCommand ..⟩

theorem controlCommand_ends {p : Port} {k : CommandKind} {body : Frame → State → CommandResult}
    (hb : ∀ f t, (body f t).Carried t) (s : State) : Ends s (controlCommand p k body s) := by
  obtain ⟨-, h⟩ | ⟨f, t, hc, h⟩ := controlCommand_cases p k body s
  · rw [h]; exact .refl s
  · obtain ⟨he, hst⟩ := claimCommand_sameTables hc
    have hbt := hb f t
    obtain ⟨u, st, pl, hu, h⟩ | ⟨u, hu, h⟩ | ⟨e, hu, h⟩ := h <;> rw [h] <;> rw [hu] at hbt
    · exact .works he ((Carries.after hst hbt).before (.of_deliverResponse ..))
    · exact .works he (Carries.after hst hbt)
    · exact ⟨he, t, .of_sameTables hst, hbt⟩

/-- Every row of a control command. -/
theorem controlRow_ends {c : Instr} {p : Port} {k : CommandKind} (h : controlRow c = some (p, k)) (s : State) :
    Ends s (exec c s) := by
  cases c with
  | attach p => exact controlCommand_ends (attachBody_carried p) s
  | detach p => exact controlCommand_ends (detachBody_carried p) s
  | defineTable p => exact controlCommand_ends (defineTableBody_carried p) s
  | tableInfo p => exact controlCommand_ends (tableInfoBody_carried p) s
  | proposeRetire p => exact controlCommand_ends (proposeRetireBody_carried p) s
  | storeInfo p => exact controlCommand_ends storeInfoBody_carried s
  | openBuild p => exact controlCommand_ends (openBuildBody_carried p) s
  | appendPoints p => exact controlCommand_ends (appendPointsBody_carried p) s
  | closeBuild p => exact controlCommand_ends (closeBuildBody_carried p) s
  | cancelBuild p => exact controlCommand_ends (cancelBuildBody_carried p) s
  | approve p => exact controlCommand_ends (approveBody_carried p) s
  | veto p => exact controlCommand_ends (vetoBody_carried p) s
  | withdraw p => exact controlCommand_ends (withdrawBody_carried p) s
  | hold p => exact controlCommand_ends (holdBody_carried p) s
  | renew p => exact controlCommand_ends (renewBody_carried p) s
  | release p => exact controlCommand_ends (releaseBody_carried p) s
  | readPoints p => exact controlCommand_ends (readPointsBody_carried p) s
  | readOptions p => exact controlCommand_ends readOptionsBody_carried s
  | programOption p => exact controlCommand_ends (programOptionBody_carried p) s
  | closeProvisioning p => exact controlCommand_ends (closeProvisioningBody_carried p) s
  | lookup | lookupBatch | burnCompletion | laneGrant | captureClaim | releaseClaim | teardownRequest | pendingTeardown
  | buildIdleExpiry | proposalExpiry | leaseExpiry | post | fetch | refetch | drain | status | unknownTransactionKind
  | prstnAsserted | prstnReleased | rstnAsserted | rstnReleased | powerOn | coldStartUp | warmStartUp => cases h

/-! ### Lookups -/

/-- A record that the dispatch checks choose is named by a slot or a lease (R26, R27). -/
theorem captureChecks_named {s : State} {w : LaneWork} {r : RecordIndex} {stale : Bool}
    (h : s.captureChecks w = .ok (r, stale)) :
    (∃ k, (s.slot k).state.current = some r) ∨ ∃ e l, s.lease e = some l ∧ l.record = r := by
  unfold State.captureChecks at h
  split at h
  · cases h
  · split at h
    · cases h
    · rename_i k _
      split at h
      · cases h
      · dsimp only at h
        generalize hc : (s.slot k).state.current = current at h
        generalize ha : (if ignoreLease w.options then none else
          (s.callersLease w.port k).map (fun l => l.2.record)) = applies at h
        generalize PortSet.has _ w.port = granted at h
        cases applies with
        | some r' =>
          dsimp only at h
          split at h
          · obtain ⟨rfl, -⟩ : r' = r ∧ _ = stale := by simpa using h
            split at ha
            · cases ha
            · obtain ⟨⟨e, l⟩, hl, hr⟩ := Option.map_eq_some_iff.1 ha
              exact .inr ⟨e, l, (callersLease_eq_some hl).1, hr⟩
          · cases h
        | none =>
          cases current with
          | none => cases h
          | some r' =>
            dsimp only at h
            split at h
            · cases h
            · split at h
              · cases h
              · obtain ⟨rfl, -⟩ : r' = r ∧ stale = false := by simpa using h
                exact .inl ⟨k, hc⟩

/-- A capture claim of a lane that waits for its dispatch. -/
theorem takeCapture_moves {s : State} {i : LaneIndex} {w : LaneWork} (hw : (s.lane i).bind (·.capture) = none) :
    Moves s (s.takeCapture i w) := by
  obtain ⟨r, stale, hc, h⟩ | ⟨st, -, h⟩ := takeCapture_cases s i w <;> rw [h]
  · exact .single (.capture (c := { record := r, stale := stale, results := [] }) w hw (captureChecks_named hc))
  · have answered := SameTables.of_deliverResponse s w.port ⟨w.frame.kind, w.frame.tag, st, []⟩
    exact .single (.quiet (answered.trans (.of_setLane ((answered.captures i).trans hw) rfl)))

theorem deliverResponse_setLane (s : State) (p : Port) (r : Response) (i : LaneIndex) (x : Option LaneWork) :
    (s.deliverResponse p r).setLane i x = (s.setLane i x).deliverResponse p r := by
  simp only [State.deliverResponse, State.port_setLane]
  split
  · rfl
  · split
    · split <;> rfl
    · rfl

/-- A lookup that completes releases its reference (R38). -/
theorem completeLookup_moves {s : State} {i : LaneIndex} {w : LaneWork} {c c' : Capture}
    (hi : (s.lane i).bind (·.capture) = some c) (hr : c'.record = c.record) : Moves s (s.completeLookup i w c') := by
  unfold State.completeLookup
  rw [deliverResponse_setLane, hr]
  exact .tail (.single (.release hi)) (.quiet (.of_deliverResponse ..))

/-- A lookup in flight that cannot be evaluated stands outside the law of the generation pool. -/
theorem not_generationLaw_of_evaluateLane {s : State} {i : LaneIndex} {w : LaneWork} {c : Capture}
    (hi : (s.lane i).bind (·.capture) = some c) (h : s.evaluateLane w c = none) : ¬ s.generationLaw := by
  intro law
  obtain ⟨w', hw', hc⟩ := Option.bind_eq_some_iff.1 hi
  obtain ⟨g, hg, hm⟩ := law.captured i w' c hw' hc
  obtain ⟨ps, hps⟩ := law.exists_points hg
  have hlen : ps.length = g.pointCount := (readRun_eq_some.1 hps).1
  have htwo := (law.sizes _ g hg).two_le hm
  have : ¬ ps.length < 2 := by omega
  simp [State.evaluateLane, hg, hps, this] at h

theorem takeRelease_ends {s t : State} {i : LaneIndex} {w : LaneWork} {c : Capture} (he : s.engaged) (hm : Moves s t)
    (hi : (t.lane i).bind (·.capture) = some c) : Ends s (t.takeRelease i w c) := by
  obtain ⟨c', -, hr, h⟩ | ⟨hn, h⟩ := takeRelease_cases t i w c <;> rw [h]
  · exact .works he (.of_moves (hm.trans (completeLookup_moves hi hr)))
  · exact ⟨he, t, .of_moves hm, not_generationLaw_of_evaluateLane hi hn⟩

/-- A grant leaves the tables alone, and the lane waits for its dispatch. -/
theorem grantLane_sameTables {s t : State} {i : LaneIndex} (h : s.grantLane = some (i, t)) : SameTables s t := by
  obtain ⟨p, f, rest, hi, -, -, rfl⟩ := grantLane_cases h
  have free : (s.lane i).bind (·.capture) = none := by rw [(idleLane_eq_some.1 hi).1]; rfl
  have fresh : (some (LaneWork.ofFrame p f)).bind (·.capture) = none := by
    simp only [LaneWork.ofFrame, Option.bind_some]
    split <;> rfl
  exact (SameTables.of_setLane free fresh).trans (.of_rest ..)

theorem lookupCommand_ends (p : Port) (k : CommandKind) (s : State) : Ends s (lookupCommand p k s) := by
  unfold lookupCommand
  split
  · rename_i i t hr hsv
    have he : s.engaged := .inl (running_of_takesClaims hr)
    have served : SameTables s t := by
      unfold State.servingLane at hsv
      split at hsv
      · obtain ⟨-, rfl⟩ : _ ∧ s = t := by simpa using hsv
        exact .refl s
      · split at hsv
        · exact grantLane_sameTables hsv
        · cases hsv
    split
    · exact .refl s
    · rename_i w hw
      split
      · rename_i c hc
        exact takeRelease_ends he (.single (.quiet served)) (by rw [hw]; exact hc)
      · rename_i hc
        have captured : Moves s (t.takeCapture i w) :=
          .head (.quiet served) (takeCapture_moves (by rw [hw]; exact hc))
        dsimp only
        split
        · rename_i c hu
          exact takeRelease_ends he captured hu
        · exact .works he (.of_moves captured)
  · exact .refl s

theorem execLaneGrant_ends (s : State) : Ends s (execLaneGrant s) := by
  unfold execLaneGrant
  split
  · rename_i i t hr hg
    exact .of_running hr (grantLane_sameTables hg)
  · exact .refl s

theorem execCaptureClaim_ends (i : LaneIndex) (s : State) : Ends s (execCaptureClaim i s) := by
  unfold execCaptureClaim
  split
  · rename_i w hr hw
    split
    · rename_i hc
      exact .works (.inl (running_of_takesClaims hr)) (.of_moves (takeCapture_moves (by rw [hw]; exact hc)))
    · exact .refl s
  · exact .refl s

theorem execReleaseClaim_ends (i : LaneIndex) (s : State) : Ends s (execReleaseClaim i s) := by
  unfold execReleaseClaim
  split
  · rename_i w hr hw
    split
    · rename_i c hc
      exact takeRelease_ends (.inl (running_of_takesClaims hr)) .refl (by rw [hw]; exact hc)
    · exact .refl s
  · exact .refl s

/-! ### The Table Manager's other claims -/

theorem execTeardownRequest_ends (p : Port) (s : State) : Ends s (execTeardownRequest p s) := by
  unfold execTeardownRequest
  split
  · rename_i q rest hr hq
    split
    · refine .of_running (running_of_takesClaims hr) (SameTables.trans (.of_rest s ..) (?_ :
        SameTables { s with requests := rest } _))
      unfold State.takeRequest
      split
      · exact .of_setSession ..
      · exact .refl _
      · exact .of_signalTeardownDone ..
    · exact .refl s
  · exact .refl s

theorem finishTeardown_carries (s : State) (p : Port) : Carries s (s.finishTeardown p) := by
  unfold State.finishTeardown
  split
  · exact (Carries.of_moves (teardown_moves ..)).before ((SameTables.of_setSession ..).trans (.of_signalTeardownDone ..))
  · exact .refl s
  · exact .refl s

theorem execPendingTeardown_ends (p : Port) (s : State) : Ends s (execPendingTeardown p s) := by
  unfold execPendingTeardown
  split
  · rename_i h
    rw [Bool.and_eq_true] at h
    exact .works (.inl (running_of_takesTeardowns h.1)) (finishTeardown_carries s p)
  · exact .refl s

theorem execBuildIdleExpiry_ends (h : Handle) (s : State) : Ends s (execBuildIdleExpiry h s) := by
  unfold execBuildIdleExpiry
  split
  · rename_i b hb
    split
    · rename_i hr
      rw [Bool.and_eq_true] at hr
      have discarded : Carries s (s.discardBuild h) := .of_move (.endBuild ..)
      refine .works (.inl (running_of_takesExpiries hr.1)) ?_
      unfold State.expireBuild
      dsimp only
      split
      · exact discarded.before (.of_deliverEvent ..)
      · exact discarded
    · exact .refl s
  · exact .refl s

theorem execProposalExpiry_ends (e : ProposalIndex) (s : State) : Ends s (execProposalExpiry e s) := by
  unfold execProposalExpiry
  split
  · split
    · rename_i hr
      rw [Bool.and_eq_true] at hr
      exact .works (.inl (running_of_takesExpiries hr.1)) (.of_move (.resolve s e (by decide)))
    · exact .refl s
  · exact .refl s

theorem execLeaseExpiry_ends (e : LeaseIndex) (s : State) : Ends s (execLeaseExpiry e s) := by
  unfold execLeaseExpiry
  split
  · rename_i l hl
    split
    · rename_i hr
      rw [Bool.and_eq_true] at hr
      have ended : Carries s (s.removeLease e) := .of_move (.endLease ..)
      refine .works (.inl (running_of_takesExpiries hr.1)) ?_
      unfold State.expireLease
      dsimp only
      split
      · exact ended.before (.of_deliverEvent ..)
      · exact ended
    · exact .refl s
  · exact .refl s

theorem execBurnCompletion_ends (s : State) : Ends s (execBurnCompletion s) := by
  unfold execBurnCompletion
  split
  · rename_i b _
    show Advance s (s.completeBurn b)
    unfold State.completeBurn
    dsimp only
    split
    · rename_i e he
      exact .works (.inr ⟨b.port, by simp [he]⟩)
        (.of_sameTables ((SameTables.of_rest s ..).trans (.of_deliverResponse ..)))
    · exact .rests (.of_rest ..) id
  · exact .refl s

/-! ### The link -/

/-- Of a byte clocked in, no command in execution is touched. -/
theorem endPhase_inExec (x : PortState) (running : Bool) (b o : Byte) (ph : TxnPhase) :
    (x.endPhase running b o ph).1.inExec = x.inExec := by
  cases ph with
  | fetch left =>
    simp only [PortState.endPhase, PortState.completeFetch]
    split
    · dsimp only
      split <;> rfl
    · rfl
  | send left => simp only [PortState.endPhase]; split <;> rfl
  | drainRecord left pos acc => simp only [PortState.endPhase]; split <;> rfl
  | drainLost acc dropped => simp only [PortState.endPhase]; split <;> rfl
  | select | post | accepting | rejecting | drainCount | drainCheck | rest => rfl

theorem clockByte_inExec (running : Bool) (x : PortState) (b : Byte) :
    (PortState.clockByte running x b).inExec = x.inExec := by
  unfold PortState.clockByte
  split
  · rfl
  · exact endPhase_inExec ..

theorem foldl_clockByte_inExec (running : Bool) (bs : List Byte) (x : PortState) :
    (bs.foldl (PortState.clockByte running) x).inExec = x.inExec :=
  foldl_induction (fun y : PortState => y.inExec = x.inExec) _ bs x rfl
    (fun y b _ h => (clockByte_inExec running y b).trans h)

theorem finishClocking_inExec (x : PortState) (c : Clocking) : (x.finishClocking c).inExec = x.inExec := by
  cases c with
  | insideByte | insideKind =>
    simp only [PortState.finishClocking, PortState.beginByte]
    split <;> rfl
  | closed | abandoned | held | selected => rfl

/-- A transaction touches no command in execution. -/
theorem transact_inExec {x y : PortState} {running : Bool} {kind : Byte} {bs : List Byte} {c : Clocking}
    (h : x.transact running kind bs c = some y) : y.inExec = x.inExec := by
  unfold PortState.transact at h
  dsimp only at h
  generalize hz : (if x.txn.isNone then x.selected running else x) = z at h
  have begun : z.inExec = x.inExec := by rw [← hz]; split <;> rfl
  rw [← begun]
  split at h
  · cases h
  · split at h
    · split at h <;> rw [← Option.some.inj h]
      · exact finishClocking_inExec ..
      · exact (finishClocking_inExec ..).trans (foldl_clockByte_inExec ..)
    · split at h
      · rw [← Option.some.inj h]
        exact (finishClocking_inExec ..).trans (foldl_clockByte_inExec ..)
      · cases h

/-- A port replaced by one with the same command in execution. -/
theorem Advance.of_setPort {s : State} {p : Port} {x : PortState} (h : x.inExec = (s.port p).inExec) :
    Advance s (s.setPort p x) := by
  refine .rests (.of_rest ..) fun ⟨hp, hi⟩ => ⟨fun q => ?_, hi⟩
  rw [State.port_setPort_ite]
  split
  · exact h.trans (hp p)
  · exact hp q

theorem transaction_ends (p : Port) (kind : Byte) (bs : List Byte) (c : Clocking) (s : State) :
    Ends s (transaction p kind bs c s) := by
  obtain h | ⟨x, hx, -, h⟩ := transaction_cases p kind bs c s <;> rw [h]
  · exact .refl s
  · exact .of_setPort (transact_inExec hx)

/-! ### Lines, resets and start-ups -/

theorem passBefore_sameTables (s : State) (p : Port) : SameTables s (s.passBefore p) := by
  unfold State.passBefore
  split
  · exact .of_takeCommand ..
  · exact .refl s

theorem execPrstnAsserted_ends (p : Port) (headPassed : Bool) (s : State) :
    Ends s (execPrstnAsserted p headPassed s) := by
  unfold execPrstnAsserted
  split
  · exact .refl s
  · have low : SameTables s (s.updPort p fun x => { x with prstnLow := true }) := .of_updPort ..
    dsimp only
    split
    · rename_i hr
      rw [Bool.and_eq_true] at hr
      refine .of_running hr.1 (low.trans ?_)
      split
      · exact (passBefore_sameTables ..).trans (.of_resetPort ..)
      · exact .of_resetPort ..
    · exact .of_setPort rfl

theorem execPrstnReleased_ends (p : Port) (s : State) : Ends s (execPrstnReleased p s) := by
  unfold execPrstnReleased
  repeat' split
  · exact .refl s
  · exact .of_setPort rfl
  · exact .of_setPort rfl

theorem execRstnAsserted_ends (s : State) : Ends s (execRstnAsserted s) := by
  unfold execRstnAsserted
  split
  · exact .refl s
  · exact .asserts

theorem execRstnReleased_ends (s : State) : Ends s (execRstnReleased s) := by
  unfold execRstnReleased
  repeat' split
  · exact .refl s
  · exact .releases _ ‹_›
  · exact .rests (.of_rest ..) id
  · exact .rests (.of_rest ..) id

theorem execPowerOn_ends (s : State) : Ends s (execPowerOn s) := by
  unfold execPowerOn
  dsimp only
  split
  · exact .powersOn (.inReset .cold) (s.enterReset (.inReset .cold)).time (.inl rfl)
  · exact .powersOn (.startUp .cold) 0 (.inr rfl)

theorem execColdStartUp_ends (s : State) : Ends s (execColdStartUp s) := by
  unfold execColdStartUp
  split
  · exact .coldStarts ‹_›
  all_goals exact .refl s

theorem execWarmStartUp_ends (s : State) : Ends s (execWarmStartUp s) := by
  unfold execWarmStartUp
  split
  · exact .warmStarts ‹_›
  all_goals exact .refl s

theorem loadOptions_inExec (s : State) (p : Port) : (s.loadOptions.port p).inExec = (s.port p).inExec := by
  rw [loadOptions_port]; rfl

theorem tick_advances (s : State) : Advance s s.tick := by
  obtain h | h | ⟨-, h⟩ := tick_cases s <;> rw [h]
  · exact .refl s
  · exact .rests (.of_rest ..) id
  · have loaded : SameTables s { s.loadOptions with time := s.time + 1 } := by
      rw [loadOptions_frame]
      generalize s.loadOptions.ports = ports
      exact .of_rest (shadow := some s.loadShadow) ..
    have lane (i : LaneIndex) : s.loadOptions.lane i = s.lane i := by rw [loadOptions_frame]; rfl
    exact .rests loaded fun ⟨hp, hi⟩ => ⟨fun p => (loadOptions_inExec s p).trans (hp p), fun i => (lane i).trans (hi i)⟩

/-! ### Every row -/

theorem exec_ends (c : Instr) (s : State) : Ends s (exec c s) := by
  cases c with
  | lookup p => exact lookupCommand_ends p .lookup s
  | lookupBatch p => exact lookupCommand_ends p .lookupBatch s
  | burnCompletion => exact execBurnCompletion_ends s
  | laneGrant => exact execLaneGrant_ends s
  | captureClaim i => exact execCaptureClaim_ends i s
  | releaseClaim i => exact execReleaseClaim_ends i s
  | teardownRequest p => exact execTeardownRequest_ends p s
  | pendingTeardown p => exact execPendingTeardown_ends p s
  | buildIdleExpiry h => exact execBuildIdleExpiry_ends h s
  | proposalExpiry e => exact execProposalExpiry_ends e s
  | leaseExpiry e => exact execLeaseExpiry_ends e s
  | post p bs c => exact transaction_ends p 0x01 bs c s
  | fetch p n c => exact transaction_ends p 0x02 _ c s
  | refetch p n c => exact transaction_ends p 0x03 _ c s
  | drain p n c => exact transaction_ends p 0x04 _ c s
  | status p n c => exact transaction_ends p 0x05 _ c s
  | unknownTransactionKind p kind n c =>
    show Ends s (execUnknownTransactionKind p kind n c s)
    unfold execUnknownTransactionKind
    split
    · exact .refl s
    · exact transaction_ends ..
  | prstnAsserted p b => exact execPrstnAsserted_ends p b s
  | prstnReleased p => exact execPrstnReleased_ends p s
  | rstnAsserted => exact execRstnAsserted_ends s
  | rstnReleased => exact execRstnReleased_ends s
  | powerOn => exact execPowerOn_ends s
  | coldStartUp => exact execColdStartUp_ends s
  | warmStartUp => exact execWarmStartUp_ends s
  | attach | detach | defineTable | tableInfo | proposeRetire | storeInfo | openBuild | appendPoints | closeBuild
  | cancelBuild | approve | veto | withdraw | hold | renew | release | readPoints | readOptions | programOption
  | closeProvisioning => exact controlRow_ends rfl s

/-- A step ends as the row at the front of the queue does, or with a tick. -/
theorem step_ends (s : State) : Ends { s with pending := s.pending.tail } (step s) := by
  unfold step
  split
  · rename_i h
    rw [show s.pending.tail = s.pending by rw [h]; rfl]
    exact tick_advances s
  · rename_i c rest h
    rw [show s.pending.tail = rest by rw [h]; rfl]
    exact exec_ends c _

/-- The inversion of a step. -/
theorem step_advances {s t : State} (h : step s = .next t) : Advance { s with pending := s.pending.tail } t := by
  have := step_ends s
  rwa [h] at this

end Sys2Proof.Machine
end

section
/-! What the moves keep of the records and their blocks: the first law, and the table of a generation that has left
BUILDING. -/

namespace Sys2Proof.Machine

/-! ### Blocks in use -/

theorem blocksInUse_singleton (g : GenRecord) : blocksInUse [some g] = g.blocks := by simp [blocksInUse]

theorem blocksInUse_append (xs ys : List (Option GenRecord)) :
    blocksInUse (xs ++ ys) = blocksInUse xs ++ blocksInUse ys := List.flatMap_append

theorem blocksInUse_cons (x : Option GenRecord) (xs : List (Option GenRecord)) :
    blocksInUse (x :: xs) = blocksInUse [x] ++ blocksInUse xs := blocksInUse_append [x] xs

/-- The blocks in use are those of one record and those of the others. -/
theorem blocksInUse_setRecord (s : State) (r : RecordIndex) :
    ∃ others, ∀ x, (blocksInUse (s.setRecord r x).records.toList).Perm (blocksInUse [x] ++ others) := by
  refine ⟨blocksInUse (s.records.toList.take r) ++ blocksInUse (s.records.toList.drop (r + 1)), fun x => ?_⟩
  have split : (s.setRecord r x).records.toList =
      s.records.toList.take r ++ ([x] ++ s.records.toList.drop (r + 1)) := by
    simp [State.setRecord, Vector.toList_set, List.set_eq_take_append_cons_drop]
  rw [split, blocksInUse_append, blocksInUse_append]
  exact List.perm_append_comm_assoc ..

/-- A record replaced by another with the same blocks. -/
theorem blocksInUse_replace {s : State} {r : RecordIndex} {g : GenRecord} (x : Option GenRecord)
    (hr : s.record r = some g) : ∃ others,
      (blocksInUse s.records.toList).Perm (g.blocks ++ others)
      ∧ (blocksInUse (s.setRecord r x).records.toList).Perm (blocksInUse [x] ++ others) := by
  obtain ⟨others, h⟩ := blocksInUse_setRecord s r
  refine ⟨others, ?_, h x⟩
  have := h (s.record r)
  rwa [State.setRecord_record, hr, blocksInUse_singleton] at this

/-- A record given to a FREE index adds its blocks. -/
theorem blocksInUse_fill {s : State} {r : RecordIndex} (g : GenRecord) (hr : s.record r = none) :
    (blocksInUse (s.setRecord r (some g)).records.toList).Perm (g.blocks ++ blocksInUse s.records.toList) := by
  obtain ⟨others, h⟩ := blocksInUse_setRecord s r
  have free := h (s.record r)
  rw [State.setRecord_record, hr] at free
  rw [← blocksInUse_singleton]
  exact (h (some g)).trans (free.symm.append_left _)

/-! ### What is retained -/

/-- The store is as it was, every block is where it was or with the free list, no FREE record is taken into use, and a
record that stays in use keeps its points, and its table once it has left BUILDING. -/
structure Retains (s t : State) : Prop where
  store : t.store = s.store
  blocks : (t.freeList ++ blocksInUse t.records.toList).Perm (s.freeList ++ blocksInUse s.records.toList)
  records : ∀ r g', t.record r = some g' → ∃ g, s.record r = some g ∧ g'.blocks = g.blocks
    ∧ g'.pointCount = g.pointCount ∧ ((∀ n, ¬ g.isBuilding n) → g.sameTable g' ∧ ∀ n, ¬ g'.isBuilding n)

theorem GenRecord.sameTable.refl (g : GenRecord) : g.sameTable g := ⟨rfl, rfl, rfl, rfl, rfl, rfl, rfl⟩

theorem GenRecord.sameTable.trans {g g' g'' : GenRecord} (h : g.sameTable g') (h' : g'.sameTable g'') :
    g.sameTable g'' := by
  obtain ⟨h1, h2, h3, h4, h5, h6, h7⟩ := h
  obtain ⟨k1, k2, k3, k4, k5, k6, k7⟩ := h'
  exact ⟨k1.trans h1, k2.trans h2, k3.trans h3, k4.trans h4, k5.trans h5, k6.trans h6, k7.trans h7⟩

namespace Retains

/-- What touches neither the store nor the blocks nor the records. -/
theorem of_eq {s t : State} (hm : t.store = s.store) (hf : t.freeList = s.freeList) (hr : t.records = s.records) :
    Retains s t where
  store := hm
  blocks := by rw [hf, hr]
  records r g' h := ⟨g', by rwa [State.record, hr] at h, rfl, rfl, fun hn => ⟨.refl g', hn⟩⟩

theorem refl (s : State) : Retains s s := of_eq rfl rfl rfl

theorem setSlot (s : State) (k : SlotIndex) (x : SlotRecord) : Retains s (s.setSlot k x) := of_eq rfl rfl rfl
theorem setContext (s : State) (h : Handle) (x : Option BuildContext) : Retains s (s.setContext h x) :=
  of_eq rfl rfl rfl
theorem setProposal (s : State) (e : ProposalIndex) (x : Option Proposal) : Retains s (s.setProposal e x) :=
  of_eq rfl rfl rfl
theorem setLease (s : State) (e : LeaseIndex) (x : Option Lease) : Retains s (s.setLease e x) := of_eq rfl rfl rfl
theorem setLane (s : State) (i : LaneIndex) (x : Option LaneWork) : Retains s (s.setLane i x) := of_eq rfl rfl rfl

theorem of_sameTables {s t : State} (h : SameTables s t) : Retains s t := of_eq h.store h.freeList h.records

theorem trans {s t u : State} (h : Retains s t) (h' : Retains t u) : Retains s u where
  store := h'.store.trans h.store
  blocks := h'.blocks.trans h.blocks
  records r g'' hu := by
    obtain ⟨g', ht, hb', hc', hs'⟩ := h'.records r g'' hu
    obtain ⟨g, hs, hb, hc, hsame⟩ := h.records r g' ht
    refine ⟨g, hs, hb'.trans hb, hc'.trans hc, fun hn => ?_⟩
    obtain ⟨same, hn'⟩ := hsame hn
    obtain ⟨same', hn''⟩ := hs' hn'
    exact ⟨same.trans same', hn''⟩

/-- A record in use changed but for its points. -/
theorem of_setRecord {s : State} {r : RecordIndex} {g g' : GenRecord} (hr : s.record r = some g)
    (hb : g'.blocks = g.blocks) (hc : g'.pointCount = g.pointCount)
    (hs : (∀ n, ¬ g.isBuilding n) → g.sameTable g' ∧ ∀ n, ¬ g'.isBuilding n) :
    Retains s (s.setRecord r (some g')) where
  store := rfl
  blocks := by
    obtain ⟨others, h, h'⟩ := blocksInUse_replace (some g') hr
    rw [blocksInUse_singleton, hb] at h'
    exact (h'.trans h.symm).append_left _
  records r' x hx := by
    rw [State.record_setRecord_ite] at hx
    split at hx
    · next he =>
      obtain rfl := Option.some.inj hx
      exact ⟨g, he ▸ hr, hb, hc, hs⟩
    · exact ⟨x, hx, rfl, rfl, fun hn => ⟨.refl x, hn⟩⟩

/-- A record's references counted anew. -/
theorem of_count {s : State} {r : RecordIndex} {g : GenRecord} (n : Nat) (hr : s.record r = some g) :
    Retains s (s.setRecord r (some { g with refCount := n })) :=
  of_setRecord hr rfl rfl fun hn => ⟨⟨rfl, rfl, rfl, rfl, rfl, rfl, rfl⟩, hn⟩

theorem setGenState {s : State} {r : RecordIndex} {x : GenState}
    (hx : ∀ g, s.record r = some g → (∀ n, ¬ g.isBuilding n) →
      x.checksum = g.state.checksum ∧ ∀ n d, x ≠ .building n d) : Retains s (s.setGenState r x) := by
  unfold State.setGenState
  split
  · exact refl s
  · rename_i g hg
    refine of_setRecord hg rfl rfl fun hn => ?_
    obtain ⟨hc, hb⟩ := hx g hg hn
    exact ⟨⟨rfl, rfl, rfl, rfl, rfl, rfl, hc⟩, fun n ⟨d, h⟩ => hb n d h⟩

/-- A record freed returns its blocks (R8). -/
theorem freeRecord (s : State) (r : RecordIndex) : Retains s (s.freeRecord r) := by
  have freed (g : GenRecord) (hg : s.record r = some g) :
      Retains s ((s.returnBlocks g.blocks).setRecord r none) := by
    rw [returnBlocks_frame]
    refine ⟨rfl, ?_, fun r' x hx => ?_⟩
    · obtain ⟨others, h, h'⟩ := blocksInUse_replace none hg
      show ((s.freeList ++ g.blocks) ++ blocksInUse (s.setRecord r none).records.toList).Perm _
      rw [List.append_assoc]
      exact ((h'.append_left g.blocks).trans h.symm).append_left _
    · have hx : (s.setRecord r none).record r' = some x := hx
      rw [State.record_setRecord_ite] at hx
      split at hx
      · cases hx
      · exact ⟨x, hx, rfl, rfl, fun hn => ⟨.refl x, hn⟩⟩
  obtain ⟨-, h⟩ | ⟨g, hg, h | ⟨-, -, h⟩⟩ := freeRecord_cases s r <;> rw [h]
  · exact refl s
  · exact freed g hg
  · exact (freed g hg).trans (setSlot ..)

theorem raiseReference (s : State) (r : RecordIndex) : Retains s (s.raiseReference r) := by
  unfold State.raiseReference
  split
  · exact refl s
  · exact of_count _ ‹_›

theorem dropReference (s : State) (r : RecordIndex) : Retains s (s.dropReference r) := by
  unfold State.dropReference
  split
  · exact refl s
  · rename_i g hg
    dsimp only
    split
    · exact (of_count _ hg).trans (freeRecord ..)
    · exact of_count _ hg

/-- A checksum is carried on from PENDING to CURRENT to SUPERSEDED. -/
theorem checksum_getD {g : GenRecord} (hn : ∀ n, ¬ g.isBuilding n) :
    some (g.state.checksum.getD 0) = g.state.checksum := by
  cases h : g.state with
  | building n d => exact absurd ⟨d, h⟩ (hn n)
  | pending c | current c | superseded c => rfl

theorem supersede (s : State) (r : RecordIndex) : Retains s (s.supersede r) := by
  unfold State.supersede
  split
  · exact refl s
  · rename_i g hg
    have superseded : Retains s (s.setGenState r (.superseded (g.state.checksum.getD 0))) :=
      setGenState fun g' hg' hn => by
        obtain rfl := Option.some.inj (hg.symm.trans hg')
        exact ⟨checksum_getD hn, fun _ _ h => nomatch h⟩
    dsimp only
    split
    · exact superseded.trans (freeRecord ..)
    · exact superseded

theorem adopt (s : State) (k : SlotIndex) (c : Change) : Retains s (s.adopt k c) := by
  cases c with
  | commit r =>
    simp only [State.adopt, State.adoptCommit]
    split
    · exact refl s
    · rename_i g hg
      have current : Retains s (s.setGenState r (.current (g.state.checksum.getD 0))) :=
        setGenState fun g' hg' hn => by
          obtain rfl := Option.some.inj (hg.symm.trans hg')
          exact ⟨checksum_getD hn, fun _ _ h => nomatch h⟩
      split
      · exact current.trans (setSlot ..)
      · exact current.trans ((setSlot ..).trans (supersede ..))
      · exact refl s
      · exact refl s
  | retire =>
    simp only [State.adopt, State.adoptRetire]
    split
    · exact setSlot ..
    · exact (setSlot ..).trans (supersede ..)
    · exact refl s
    · exact refl s

theorem openChange (s : State) (k : SlotIndex) (c : Change) (p : Port) (n : Session) :
    Retains s (s.openChange k c p n).1 := by
  unfold State.openChange
  dsimp only
  split
  · split
    · exact refl s
    · dsimp only
      exact ((setProposal ..).trans (setSlot ..)).trans (of_sameTables (.of_deliverWhere ..))
  · exact (adopt s k c).trans (of_sameTables (.of_announceChange ..))

theorem applyOutcome (s : State) (k : SlotIndex) (c : Change) (o : ProposalOutcome) :
    Retains s (s.applyOutcome k c o) := by
  cases o with
  | adopted => exact adopt s k c
  | pending => exact refl s
  | rejected | lapsed | withdrawn =>
    cases c with
    | commit r => exact freeRecord s r
    | retire => exact refl s

theorem resolve (s : State) (e : ProposalIndex) (o : ProposalOutcome) : Retains s (s.resolve e o) := by
  unfold State.resolve
  split
  · exact refl s
  · rename_i q _
    have cleared := ((applyOutcome s q.slot q.change o).trans
      (setSlot _ q.slot { (s.applyOutcome q.slot q.change o).slot q.slot with proposal := none })).trans
      (setProposal _ e none)
    have told := fun f x => cleared.trans (of_sameTables (.of_deliverWhere _ f x))
    cases o with
    | adopted => exact (told ..).trans (of_sameTables (.of_announceChange ..))
    | rejected | lapsed | withdrawn | pending => exact told ..

theorem removeLease (s : State) (e : LeaseIndex) : Retains s (s.removeLease e) := by
  unfold State.removeLease
  split
  · exact refl s
  · exact (setLease ..).trans (dropReference ..)

theorem discardBuild (s : State) (h : Handle) : Retains s (s.discardBuild h) := by
  unfold State.discardBuild
  split
  · exact refl s
  · exact (freeRecord ..).trans ((setContext ..).trans (setSlot ..))

theorem restartIdle (s : State) (r : RecordIndex) : Retains s (s.restartIdle r) := by
  unfold State.restartIdle
  split
  · exact refl s
  · rename_i g hg
    split
    · rename_i n d hs
      exact of_setRecord hg rfl rfl fun hn => absurd ⟨d, hs⟩ (hn n)
    all_goals exact refl s

end Retains

/-- A move retains the store and the points of the records, but for an APPEND_POINTS and for the end of a CLOSE_BUILD,
which trims a block list. -/
theorem Move.retains_or {s t : State} (h : Move s t) :
    Retains s t
    ∨ (∃ r g declared d previous ps m, s.record r = some g ∧ g.state = .building declared d
        ∧ readRun s.store g.blocks (g.pointCount - 1) (min g.pointCount 1) = some previous
        ∧ rising (previous ++ ps) = true ∧ writeRun g.blocks s.store g.pointCount ps = some m
        ∧ t = { s with store := m }.setRecord r (some { g with pointCount := g.pointCount + ps.length }))
    ∨ ∃ b h g c, s.context h = some b ∧ s.record b.record = some g ∧ Retains (s.finishBuild h b g c) t := by
  cases h with
  | append hr hg hn hp hx hw => exact .inr (.inl ⟨_, _, _, _, _, _, _, hr, hg, hp, hx, hw, rfl⟩)
  | close c n hb hr hn he => exact .inr (.inr ⟨_, _, _, c, hb, hr, .openChange ..⟩)
  | quiet h => exact .inl (.of_sameTables h)
  | define d h => exact .inl (.setSlot ..)
  | endLease => exact .inl (.removeLease ..)
  | endBuild => exact .inl (.discardBuild ..)
  | restart => exact .inl (.restartIdle ..)
  | retire => exact .inl (.openChange ..)
  | resolve => exact .inl (.resolve ..)
  | hold => exact .inl ((Retains.setLease ..).trans (.raiseReference ..))
  | capture => exact .inl ((Retains.raiseReference ..).trans (.setLane ..))
  | release => exact .inl ((Retains.dropReference ..).trans (.setLane ..))

end Sys2Proof.Machine
end

section
/-! The first law (R4) through every step: every block stands in the free list or in the block list of one record. -/

namespace Sys2Proof.Machine

/-- All blocks, those of the free list and those in use. -/
def State.allBlocks (s : State) : List BlockIndex := s.freeList ++ blocksInUse s.records.toList

theorem blockLaw_iff {s : State} : s.blockLaw ↔ s.allBlocks.Perm (List.finRange 512) := Iff.rfl

theorem allBlocks_eq {s t : State} (hf : t.freeList = s.freeList) (hr : t.records = s.records) :
    t.allBlocks = s.allBlocks := by rw [State.allBlocks, hf, hr, State.allBlocks]

/-! ### Builds -/

/-- The trimmed blocks of a build that is closed join the free list (R70). -/
theorem finishBuild_allBlocks {s : State} {b : BuildContext} {g : GenRecord} (h : Handle) (c : Word)
    (hr : s.record b.record = some g) : (s.finishBuild h b g c).allBlocks.Perm s.allBlocks := by
  obtain ⟨others, hs, ht⟩ := blocksInUse_replace
    (some { g with blocks := g.blocks.take (blocksFor g.pointCount), state := .pending c }) hr
  rw [blocksInUse_singleton] at ht
  have closed : (s.finishBuild h b g c).allBlocks = (s.freeList ++ g.blocks.drop (blocksFor g.pointCount))
      ++ blocksInUse (s.setRecord b.record (some { g with
          blocks := g.blocks.take (blocksFor g.pointCount), state := .pending c })).records.toList := by
    unfold State.finishBuild
    dsimp only
    rw [returnBlocks_frame]
    rfl
  rw [closed, List.append_assoc]
  refine List.Perm.append_left _ (((ht.append_left _).trans ?_).trans hs.symm)
  rw [← List.append_assoc]
  exact (List.perm_append_comm.trans (by rw [List.take_append_drop])).append_right _

/-- The generation record of a build that is opened (R64). -/
def State.newBuild (s : State) (a : OpenArgs) : GenRecord :=
  { slot := a.slot, number := s.newNumber a.slot, state := .building a.declared (s.time + s.inUse.buildIdle)
    interpolation := a.interpolation, extrapolation := a.extrapolation, pointCount := 0
    blocks := s.freeList.take (blocksFor a.declared), refCount := 0 }

/-- The tables once a build is opened, before STORE_LOW. -/
def State.buildOpened (s : State) (p : Port) (n : Session) (a : OpenArgs) (h : Handle) (r : RecordIndex) : State :=
  (((s.reserve (blocksFor a.declared)).setRecord r (some (s.newBuild a))).setContext h
    (some { slot := a.slot, record := r, owner := p, session := n })).setSlot a.slot
      { s.slot a.slot with nextNumber := nextNumber (s.newNumber a.slot), build := some h }

theorem SameTables.of_warnStoreLow (s : State) (n : Nat) : SameTables s (s.warnStoreLow n) := by
  unfold State.warnStoreLow
  split
  · exact (SameTables.of_deliverWhere ..).trans (.of_rest ..)
  · exact .refl s

/-- The effect of OPEN_BUILD on the tables. -/
theorem openBuild_sameTables (s : State) (p : Port) (n : Session) (a : OpenArgs) (h : Handle) (r : RecordIndex) :
    SameTables (s.buildOpened p n a h r) (s.openBuild p n a h r) := .of_warnStoreLow ..

/-- The blocks of a new build leave the head of the free list (R5). -/
theorem buildOpened_allBlocks {s : State} {r : RecordIndex} (p : Port) (n : Session) (a : OpenArgs) (h : Handle)
    (hr : s.record r = none) : (s.buildOpened p n a h r).allBlocks.Perm s.allBlocks := by
  have filled := blocksInUse_fill (s.newBuild a) hr
  have opened : (s.buildOpened p n a h r).allBlocks = s.freeList.drop (blocksFor a.declared)
      ++ blocksInUse (s.setRecord r (some (s.newBuild a))).records.toList := rfl
  rw [opened]
  refine (filled.append_left _).trans ?_
  rw [← List.append_assoc]
  exact (List.perm_append_comm.trans (by rw [State.newBuild, List.take_append_drop])).append_right _

/-! ### Moves -/

theorem Move.allBlocks {s t : State} (h : Move s t) : t.allBlocks.Perm s.allBlocks := by
  obtain h | ⟨r, g, -, -, -, ps, m, hr, -, -, -, -, rfl⟩ | ⟨b, h, g, c, -, hr, ht⟩ := h.retains_or
  · exact h.blocks
  · obtain ⟨others, hs, ht⟩ := blocksInUse_replace (some { g with pointCount := g.pointCount + ps.length }) hr
    rw [blocksInUse_singleton] at ht
    exact (ht.trans hs.symm).append_left _
  · exact ht.blocks.trans (finishBuild_allBlocks h c hr)

theorem Carries.allBlocks {s t : State} (h : Carries s t) : t.allBlocks.Perm s.allBlocks := by
  obtain h | ⟨u, hb, -, -, -, -, -, hr, -, -, -, ha⟩ := h
  · induction h with
    | refl => exact .refl _
    | tail _ hm ih => exact hm.allBlocks.trans ih
  · have opening := (openBuild_sameTables u _ _ _ _ _).trans ha
    rw [allBlocks_eq opening.freeList opening.records, ← allBlocks_eq hb.freeList hb.records]
    exact buildOpened_allBlocks _ _ _ _ hr

/-! ### Start-ups -/

theorem blocksInUse_replicate_none (n : Nat) : blocksInUse (List.replicate n none) = [] := by
  simp [blocksInUse]

theorem coldStart_records (s : State) : s.coldStart.records = Vector.replicate 128 none := by
  unfold State.coldStart
  generalize s.loadOptions.startCommon = t
  rfl

theorem coldStart_freeList (s : State) : s.coldStart.freeList = List.finRange 512 := by
  unfold State.coldStart
  generalize s.loadOptions.startCommon = t
  dsimp only

theorem coldStart_blockLaw (s : State) : s.coldStart.blockLaw := by
  rw [State.blockLaw, coldStart_records, coldStart_freeList, Vector.toList_replicate, blocksInUse_replicate_none,
    List.append_nil]

theorem warmStart_records (s : State) : s.warmStart.records = s.records.map (fun g => g.bind GenRecord.warm) := by
  unfold State.warmStart
  generalize s.startCommon = t
  rfl

theorem warmStart_freeList (s : State) : s.warmStart.freeList =
    (List.finRange 512).filter (fun b => !(blocksInUse s.warmStart.records.toList).contains b) := by
  rw [warmStart_records]
  unfold State.warmStart
  generalize s.startCommon = t
  dsimp only

/-- A warm start-up keeps no block in use that was not (R21). -/
theorem blocksInUse_warm_sublist (xs : List (Option GenRecord)) :
    (blocksInUse (xs.map fun g => g.bind GenRecord.warm)).Sublist (blocksInUse xs) := by
  induction xs with
  | nil => exact .refl _
  | cons x xs ih =>
    have head : (blocksInUse [x.bind GenRecord.warm]).Sublist (blocksInUse [x]) := by
      cases x with
      | none => exact .refl _
      | some g =>
        simp only [Option.bind_some, GenRecord.warm]
        split
        · rw [blocksInUse_singleton, blocksInUse_singleton]
        · exact List.nil_sublist _
    rw [List.map_cons, blocksInUse_cons, blocksInUse_cons x]
    exact head.append ih

theorem warmStart_blockLaw {s : State} (h : s.blockLaw) : s.warmStart.blockLaw := by
  have nodup : (blocksInUse s.records.toList).Nodup :=
    (h.nodup_iff.2 (List.nodup_finRange 512)).of_append_right
  have kept : (blocksInUse s.warmStart.records.toList).Nodup := by
    rw [warmStart_records, Vector.toList_map]
    exact nodup.sublist (blocksInUse_warm_sublist _)
  rw [State.blockLaw, warmStart_freeList]
  refine (List.perm_ext_iff_of_nodup ?_ (List.nodup_finRange 512)).2 fun b => ?_
  · refine ((List.nodup_finRange 512).filter _).append kept fun b hb hk => ?_
    simp_all
  · by_cases hb : b ∈ blocksInUse s.warmStart.records.toList <;> simp [hb]

/-! ### Steps -/

theorem enterReset_records (s : State) (x : Phase) : (s.enterReset x).records = s.records := by rw [enterReset_frame]

theorem enterReset_freeList (s : State) (x : Phase) : (s.enterReset x).freeList = s.freeList := by
  rw [enterReset_frame]

theorem Advance.blockLaw {s t : State} (h : Advance s t) (hs : s.blockLaw) : t.blockLaw := by
  have unchanged {u : State} (hf : u.freeList = s.freeList) (hr : u.records = s.records) : u.blockLaw := by
    rw [blockLaw_iff, allBlocks_eq hf hr]
    exact hs
  cases h with
  | works he h => exact h.allBlocks.trans hs
  | rests h hi => exact unchanged h.freeList h.records
  | asserts =>
    exact unchanged (enterReset_freeList s (.inReset s.assertedKind)) (enterReset_records s (.inReset s.assertedKind))
  | releases k h => exact unchanged rfl rfl
  | powersOn x time h => exact unchanged (enterReset_freeList s x) (enterReset_records s x)
  | coldStarts h => exact coldStart_blockLaw s
  | warmStarts h => exact warmStart_blockLaw hs

/-- Settles O53: no move makes or loses a block, and both start-ups count the free list anew. -/
theorem everyBlockStaysInOnePlace : Obligations.EveryBlockStaysInOnePlace :=
  fun _ _ hs h => (step_advances h).blockLaw hs

end Sys2Proof.Machine
end

section
/-! The generation number that OPEN_BUILD assigns (R11). Candidates from the slot's next number on are all different, so
128 of them cannot all be in use while a record is FREE. -/

namespace Sys2Proof.Machine

theorem numberInUse_iff {s : State} {k : SlotIndex} {n : GenNumber} :
    s.numberInUse k n = true ↔ ∃ r g, s.record r = some g ∧ g.slot = k ∧ g.number = n := by
  simp only [State.numberInUse, List.any_eq_true, List.mem_finRange, true_and]
  refine exists_congr fun r => ?_
  cases h : s.record r <;> simp

theorem nextNumber_ne_zero (n : GenNumber) : nextNumber n ≠ 0 := by
  unfold nextNumber
  split
  · decide
  · bv_omega

/-- The candidate after `j` others. -/
theorem toNat_iterate_nextNumber {n : GenNumber} (hn : n ≠ 0) (j : Nat) :
    (nextNumber^[j] n).toNat = (n.toNat - 1 + j) % 65535 + 1 := by
  have pos : n.toNat ≠ 0 := fun h => hn (BitVec.eq_of_toNat_eq h)
  induction j with
  | zero =>
    rw [Function.iterate_zero, id_eq]
    omega
  | succ j ih =>
    rw [Function.iterate_succ_apply']
    generalize nextNumber^[j] n = m at ih
    unfold nextNumber
    split
    · next h =>
      rw [h] at ih
      have : (65535 : GenNumber).toNat = 65535 := rfl
      have : (1 : GenNumber).toNat = 1 := rfl
      omega
    · next h =>
      have : m.toNat ≠ 65535 := fun e => h (BitVec.eq_of_toNat_eq e)
      rw [BitVec.toNat_add, ih, show (1 : GenNumber).toNat = 1 from rfl]
      omega

/-- Fewer than 65535 candidates are all different. -/
theorem iterate_nextNumber_inj {n : GenNumber} (hn : n ≠ 0) {i j : Nat} (hi : i < 65535) (hj : j < 65535)
    (h : nextNumber^[i] n = nextNumber^[j] n) : i = j := by
  have := congrArg BitVec.toNat h
  rw [toNat_iterate_nextNumber hn, toNat_iterate_nextNumber hn] at this
  omega

theorem assignNumber_ne_zero (s : State) (k : SlotIndex) (fuel : Nat) {n : GenNumber} (hn : n ≠ 0) :
    s.assignNumber k fuel n ≠ 0 := by
  induction fuel generalizing n with
  | zero => exact hn
  | succ fuel ih =>
    simp only [State.assignNumber]
    split
    · exact ih (nextNumber_ne_zero n)
    · exact hn

/-- Where one of the candidates is not in use, the one assigned is not. -/
theorem numberInUse_assignNumber {s : State} {k : SlotIndex} {fuel : Nat} {n : GenNumber}
    (h : ∃ j, j < fuel ∧ s.numberInUse k (nextNumber^[j] n) = false) :
    s.numberInUse k (s.assignNumber k fuel n) = false := by
  induction fuel generalizing n with
  | zero =>
    obtain ⟨j, hj, -⟩ := h
    omega
  | succ fuel ih =>
    simp only [State.assignNumber]
    split
    · next hu =>
      obtain ⟨j, hj, hf⟩ := h
      cases j with
      | zero => exact absurd (hu.symm.trans hf) (by decide)
      | succ j => exact ih ⟨j, by omega, hf⟩
    · next hu => simpa using hu

/-- While a record is FREE, one of 128 candidates is not in use. -/
theorem exists_candidate {s : State} {k : SlotIndex} {n : GenNumber} (hn : n ≠ 0) {r : RecordIndex}
    (hr : s.record r = none) : ∃ j, j < 128 ∧ s.numberInUse k (nextNumber^[j] n) = false := by
  by_contra hall
  have carried (j : Fin 128) : ∃ r, ∃ g, s.record r = some g ∧ g.number = nextNumber^[j.val] n := by
    have hu : s.numberInUse k (nextNumber^[j.val] n) = true := by
      by_contra hu
      exact hall ⟨j, j.isLt, by simpa using hu⟩
    obtain ⟨r, g, hg, -, hgn⟩ := numberInUse_iff.1 hu
    exact ⟨r, g, hg, hgn⟩
  choose carrier hcarrier using carried
  have injective : Function.Injective carrier := by
    intro i j hij
    obtain ⟨g, hg, hi⟩ := hcarrier i
    obtain ⟨g', hg', hj⟩ := hcarrier j
    rw [hij] at hg
    obtain rfl := Option.some.inj (hg.symm.trans hg')
    exact Fin.ext (iterate_nextNumber_inj hn (by omega) (by omega) (hi.symm.trans hj))
  obtain ⟨j, rfl⟩ := Finite.surjective_of_injective injective r
  obtain ⟨g, hg, -⟩ := hcarrier j
  rw [hr] at hg
  cases hg

/-- No record in use of the slot carries the number assigned (R11). -/
theorem newNumber_fresh {s : State} {k : SlotIndex} (hn : (s.slot k).nextNumber ≠ 0) {r : RecordIndex}
    (hr : s.record r = none) {r' : RecordIndex} {g : GenRecord} (hg : s.record r' = some g) (hk : g.slot = k) :
    g.number ≠ s.newNumber k := fun he => by
  have free := numberInUse_assignNumber (exists_candidate (k := k) hn hr)
  have used : s.numberInUse k (s.newNumber k) = true := numberInUse_iff.2 ⟨r', g, hg, hk, he⟩
  exact absurd (used.symm.trans free) (by decide)

theorem newNumber_ne_zero {s : State} {k : SlotIndex} (hn : (s.slot k).nextNumber ≠ 0) : s.newNumber k ≠ 0 :=
  assignNumber_ne_zero _ _ _ hn

/-- Settles O20. -/
theorem assignedNumberIsFresh : Obligations.AssignedNumberIsFresh := by
  intro s k hn ⟨r, hr⟩
  refine ⟨newNumber_ne_zero hn, fun _ _ => newNumber_fresh hn hr, fun hfresh => ?_⟩
  have free : ¬ s.numberInUse k (s.slot k).nextNumber = true := fun h => by
    obtain ⟨r', g, hg, hk, he⟩ := numberInUse_iff.1 h
    exact hfresh r' g hg hk he
  exact if_neg free

end Sys2Proof.Machine
end

section
/-! The law of the generation pool with one record in hand: between the steps of an operation a record may be named by no
slot, context or proposal, and is then to be linked again or freed. Each lemma below is one such step. -/

namespace Sys2Proof.Machine

/-! ### The law with a record in hand -/

/-- The record that a change commits. -/
def Change.committed : Change → Option RecordIndex
  | .commit r => some r
  | .retire => none

/-- What keeps a record in use in its state (R7, R9, R47). -/
def State.homed (s : State) (r : RecordIndex) (g : GenRecord) : Prop :=
  (∀ n d, g.state = .building n d → ∃ b c, s.context b = some c ∧ c.record = r ∧ c.slot = g.slot)
  ∧ (∀ c, g.state = .pending c → ∃ e q, s.proposal e = some q ∧ q.change = .commit r ∧ q.slot = g.slot)
  ∧ (∀ c, g.state = .current c → ∃ d, (s.slot g.slot).state = .live d r)
  ∧ ∀ c, g.state = .superseded c →
    g.refCount ≠ 0 ∧ (∀ d, (s.slot g.slot).state ≠ .defined d) ∧ (s.slot g.slot).state ≠ .vacant

/-- The law of the generation pool of a running part, where the record `x` is in hand: nothing but leases and lanes names
it, and nothing needs to. -/
structure State.poolLaw (s : State) (x : Option RecordIndex) : Prop where
  slots : s.slotLaw
  sizes : ∀ r g, s.record r = some g → g.sizeLaw
  live : ∀ k d r, (s.slot k).state = .live d r →
    x ≠ some r ∧ ∃ g c, s.record r = some g ∧ g.slot = k ∧ g.state = .current c
  context : ∀ b c, s.context b = some c →
    x ≠ some c.record ∧ ∃ g n d, s.record c.record = some g ∧ g.slot = c.slot ∧ g.state = .building n d
  commit : ∀ e q r, s.proposal e = some q → q.change = .commit r →
    x ≠ some r ∧ ∃ g c, s.record r = some g ∧ g.slot = q.slot ∧ g.state = .pending c
  homed : ∀ r g, s.record r = some g → x ≠ some r → s.homed r g
  retiring : ∀ k d, (s.slot k).state = .retiring d → ∃ r g, s.record r = some g ∧ g.slot = k
  leased : ∀ e l, s.lease e = some l → ∃ g, s.record l.record = some g ∧ g.slot = l.slot ∧ g.mayBeNamed
  captured : ∀ i w c, s.lane i = some w → w.capture = some c → ∃ g, s.record c.record = some g ∧ g.mayBeNamed
  counted : ∀ r g, s.record r = some g → g.refCount = s.leasesNaming r + s.capturesOf r
  numbered : ∀ k, (s.slot k).nextNumber ≠ 0
  numbers : ∀ r g, s.record r = some g → g.number ≠ 0
  distinct : ∀ r r' g g', s.record r = some g → s.record r' = some g' → g.slot = g'.slot → g.number = g'.number →
    r = r'

theorem isCurrent_iff {x : GenState} : x.isCurrent = true ↔ ∃ c, x = .current c := by
  cases x <;> simp [GenState.isCurrent]

theorem isSuperseded_iff {x : GenState} : x.isSuperseded = true ↔ ∃ c, x = .superseded c := by
  cases x <;> simp [GenState.isSuperseded]

theorem slotState_current_eq_some {x : SlotState} {r : RecordIndex} : x.current = some r ↔ ∃ d, x = .live d r := by
  cases x <;> simp [SlotState.current]

theorem isRetiring_iff {x : SlotState} : x.isRetiring = true ↔ ∃ d, x = .retiring d := by
  cases x <;> simp [SlotState.isRetiring]

/-- With no record in hand it is the law of the generation pool. -/
theorem generationLaw_iff {s : State} (hr : s.isRunning = true) : s.generationLaw ↔ s.poolLaw none := by
  constructor
  · intro h
    refine ⟨h.slots, h.sizes, fun k d r hk => ⟨nofun, ?_⟩, fun b c hc => ⟨nofun, ?_⟩,
      fun e q r hq hc => ⟨nofun, ?_⟩, fun r g hg _ => ?_, h.retiring, h.leased, h.captured,
      h.counted hr, h.numbered, h.numbers, h.distinct⟩
    · obtain ⟨g, hg, hs, hc⟩ := (h.current k r).1 (by rw [hk]; rfl)
      obtain ⟨c, hc⟩ := isCurrent_iff.1 hc
      exact ⟨g, c, hg, hs, hc⟩
    · obtain ⟨g, n, hg, hs, d, hd⟩ := h.context b c hc
      exact ⟨g, n, d, hg, hs, hd⟩
    · obtain ⟨g, hg, hs, c, hc⟩ := h.commit e q r hq hc
      exact ⟨g, c, hg, hs, hc⟩
    · exact ⟨fun n d hs => h.building r g n hg ⟨d, hs⟩, fun c hs => h.pending r g hg ⟨c, hs⟩,
        fun c hs => slotState_current_eq_some.1 ((h.current g.slot r).2 ⟨g, hg, rfl, isCurrent_iff.2 ⟨c, hs⟩⟩),
        fun c hs => h.superseded r g hg (isSuperseded_iff.2 ⟨c, hs⟩)⟩
  · intro h
    have home {r : RecordIndex} {g : GenRecord} (hg : s.record r = some g) : s.homed r g := h.homed r g hg nofun
    refine ⟨h.slots, h.sizes, fun k r => ⟨fun hk => ?_, ?_⟩, fun r g n hg ⟨d, hs⟩ => ?_, fun b c hc => ?_,
      fun r g hg ⟨c, hs⟩ => ?_, fun e q r hq hc => ?_, fun r g hg hs => ?_, h.retiring, h.leased, h.captured,
      fun _ => h.counted, h.numbered, h.numbers, h.distinct, fun hn => absurd (hr.symm.trans hn) (by decide)⟩
    · obtain ⟨d, hd⟩ := slotState_current_eq_some.1 hk
      obtain ⟨-, g, c, hg, hs, hc⟩ := h.live k d r hd
      exact ⟨g, hg, hs, isCurrent_iff.2 ⟨c, hc⟩⟩
    · rintro ⟨g, hg, rfl, hc⟩
      obtain ⟨c, hc⟩ := isCurrent_iff.1 hc
      exact slotState_current_eq_some.2 ((home hg).2.2.1 c hc)
    · exact (home hg).1 n d hs
    · obtain ⟨-, g, n, d, hg, hs, hd⟩ := h.context b c hc
      exact ⟨g, n, hg, hs, d, hd⟩
    · exact (home hg).2.1 c hs
    · obtain ⟨-, g, c, hg, hs, hc⟩ := h.commit e q r hq hc
      exact ⟨g, hg, hs, c, hc⟩
    · obtain ⟨c, hc⟩ := isSuperseded_iff.1 hs
      exact (home hg).2.2.2 c hc

namespace State.poolLaw

variable {s : State} {x : Option RecordIndex}

/-- The law speaks neither of the store nor of the free list. -/
theorem of_blocks (h : s.poolLaw x) (m : Memory) (fl : List BlockIndex) (armed : Bool) :
    ({ s with store := m, freeList := fl, storeLowArmed := armed } : State).poolLaw x :=
  { h with slots := { h.slots with } }

/-! ### Taking up and putting down -/

/-- The record in hand is put down where something keeps it in its state. -/
theorem putDown {r : RecordIndex} (h : s.poolLaw (some r)) (hr : ∀ g, s.record r = some g → s.homed r g) :
    s.poolLaw none where
  slots := h.slots
  sizes := h.sizes
  live k d r hk := ⟨nofun, (h.live k d r hk).2⟩
  context b c hc := ⟨nofun, (h.context b c hc).2⟩
  commit e q r hq hc := ⟨nofun, (h.commit e q r hq hc).2⟩
  homed r' g hg _ := by
    by_cases hx : r' = r
    · exact hx ▸ hr g (hx ▸ hg)
    · exact h.homed r' g hg (fun e => hx (Option.some.inj e).symm)
  retiring := h.retiring
  leased := h.leased
  captured := h.captured
  counted := h.counted
  numbered := h.numbered
  numbers := h.numbers
  distinct := h.distinct

/-- A SUPERSEDED record, which no slot, context or proposal names, is taken up. -/
theorem takeUp {r : RecordIndex} {g : GenRecord} {c : Word} (h : s.poolLaw none) (hr : s.record r = some g)
    (hg : g.state = .superseded c) : s.poolLaw (some r) where
  slots := h.slots
  sizes := h.sizes
  live := by have := h.live; grind
  context := by have := h.context; grind
  commit := by have := h.commit; grind
  homed r' g' hg' _ := h.homed r' g' hg' nofun
  retiring := h.retiring
  leased := h.leased
  captured := h.captured
  counted := h.counted
  numbered := h.numbered
  numbers := h.numbers
  distinct := h.distinct

end State.poolLaw

/-! ### The slot law through the links (R48) -/

namespace State.slotLaw

variable {s : State}

theorem proposal_of (h : s.slotLaw) {e : ProposalIndex} {q : Proposal} (hq : s.proposal e = some q) :
    (s.slot q.slot).proposal = some e := (h.proposal _ _).2 ⟨q, hq, rfl⟩

theorem build_of (h : s.slotLaw) {b : Handle} {c : BuildContext} (hc : s.context b = some c) :
    (s.slot c.slot).build = some b := (h.build _ _).2 ⟨c, hc, rfl⟩

/-- A slot with a reference is DEFINED or LIVE. -/
theorem state_of_linked (h : s.slotLaw) {k : SlotIndex} (hk : (s.slot k).build ≠ none ∨ (s.slot k).proposal ≠ none) :
    ∃ d, (s.slot k).state = .defined d ∨ ∃ r, (s.slot k).state = .live d r := by
  have vacant := h.vacant k
  have retiring := h.retiring k
  cases hs : (s.slot k).state with
  | vacant => simp_all [SlotRecord.vacant]
  | retiring d => have := retiring d hs; simp_all
  | defined d => exact ⟨d, .inl rfl⟩
  | live d r => exact ⟨d, .inr ⟨r, rfl⟩⟩

/-- A slot with a reference has no latch. -/
theorem latch_of_linked (h : s.slotLaw) {k : SlotIndex} (hk : (s.slot k).build ≠ none ∨ (s.slot k).proposal ≠ none) :
    (s.slot k).fixedLatch = false := by
  have := h.latched k
  cases hl : (s.slot k).fixedLatch <;> simp_all

theorem unlinkProposal (h : s.slotLaw) {e : ProposalIndex} {q : Proposal} (hq : s.proposal e = some q) :
    ((s.setSlot q.slot { s.slot q.slot with proposal := none }).setProposal e none).slotLaw := by
  have linked (e q) (hq : s.proposal e = some q) := h.proposal_of hq
  constructor
  all_goals simp only [State.slot_setProposal, State.slot_setSlot_ite, State.proposal_setProposal_ite,
    State.proposal_setSlot, State.context_setProposal, State.context_setSlot]
  · have := h.build; grind
  · have := h.proposal; grind
  · have := h.notBoth; grind
  · have := h.vacant; grind [SlotRecord.vacant]
  · have := h.retiring; grind
  · have := h.latched; grind

theorem linkProposal (h : s.slotLaw) {e : ProposalIndex} {q : Proposal} {d : TableDef} (hf : s.proposal e = none)
    (hs : (s.slot q.slot).state = .defined d ∨ ∃ r, (s.slot q.slot).state = .live d r)
    (hlt : (s.slot q.slot).fixedLatch = false) (hnb : (s.slot q.slot).build = none)
    (hnp : (s.slot q.slot).proposal = none) :
    ((s.setProposal e (some q)).setSlot q.slot { s.slot q.slot with proposal := some e }).slotLaw := by
  have linked (e q) (hq : s.proposal e = some q) := h.proposal_of hq
  constructor
  all_goals simp only [State.slot_setProposal, State.slot_setSlot_ite, State.proposal_setProposal_ite,
    State.proposal_setSlot, State.context_setProposal, State.context_setSlot]
  · have := h.build; grind
  · have := h.proposal; grind
  · have := h.notBoth; grind
  · have := h.vacant; grind [SlotRecord.vacant]
  · have := h.retiring; grind
  · have := h.latched; grind

theorem unlinkBuild (h : s.slotLaw) {b : Handle} {c : BuildContext} (hc : s.context b = some c) :
    ((s.setContext b none).setSlot c.slot { s.slot c.slot with build := none }).slotLaw := by
  have linked (b c) (hc : s.context b = some c) := h.build_of hc
  constructor
  all_goals simp only [State.slot_setContext, State.slot_setSlot_ite, State.context_setContext_ite,
    State.proposal_setSlot, State.proposal_setContext, State.context_setSlot]
  · have := h.build; grind
  · have := h.proposal; grind
  · have := h.notBoth; grind
  · have := h.vacant; grind [SlotRecord.vacant]
  · have := h.retiring; grind
  · have := h.latched; grind

theorem linkBuild (h : s.slotLaw) {b : Handle} {c : BuildContext} {d : TableDef} (n : GenNumber)
    (hf : s.context b = none) (hs : (s.slot c.slot).state = .defined d ∨ ∃ r, (s.slot c.slot).state = .live d r)
    (hlt : (s.slot c.slot).fixedLatch = false) (hnb : (s.slot c.slot).build = none)
    (hnp : (s.slot c.slot).proposal = none) :
    ((s.setContext b (some c)).setSlot c.slot { s.slot c.slot with nextNumber := n, build := some b }).slotLaw := by
  have linked (b c) (hc : s.context b = some c) := h.build_of hc
  constructor
  all_goals simp only [State.slot_setContext, State.slot_setSlot_ite, State.context_setContext_ite,
    State.proposal_setSlot, State.proposal_setContext, State.context_setSlot]
  · have := h.build; grind
  · have := h.proposal; grind
  · have := h.notBoth; grind
  · have := h.vacant; grind [SlotRecord.vacant]
  · have := h.retiring; grind
  · have := h.latched; grind

/-- A slot's state replaced where it has no reference: by LIVE, with any latch, by RETIRING without one, or by the
record of a slot just vacated or just defined. -/
theorem setState (h : s.slotLaw) {k : SlotIndex} {x : SlotRecord} (hnb : (s.slot k).build = none)
    (hnp : (s.slot k).proposal = none) (hb : x.build = none) (hp : x.proposal = none)
    (hv : x.state = .vacant → x = SlotRecord.vacant)
    (hl : x.fixedLatch = true → ∃ d r, x.state = .live d r) : (s.setSlot k x).slotLaw := by
  constructor
  all_goals simp only [State.slot_setSlot_ite, State.proposal_setSlot, State.context_setSlot]
  · have := h.build; grind
  · have := h.proposal; grind
  · have := h.notBoth; grind
  · have := h.vacant; grind [SlotRecord.vacant]
  · have := h.retiring; grind
  · have := h.latched; grind

end State.slotLaw

end Sys2Proof.Machine
end

section
/-! The steps of an operation on the generation pool, each from one law with a record in hand to another. -/

namespace Sys2Proof.Machine

theorem committed_eq_some {c : Change} {r : RecordIndex} : c.committed = some r ↔ c = .commit r := by
  cases c <;> simp [Change.committed]

theorem mayBeNamed_iff {g : GenRecord} : g.mayBeNamed ↔ (∃ c, g.state = .current c) ∨ ∃ c, g.state = .superseded c := by
  rw [GenRecord.mayBeNamed, isCurrent_iff, isSuperseded_iff]

namespace State.poolLaw

variable {s : State} {x : Option RecordIndex}

/-! ### Slots, contexts and proposals -/

/-- A proposal entry and its slot's reference are cleared; a record it commits is in hand. -/
theorem unlinkProposal {e : ProposalIndex} {q : Proposal} (h : s.poolLaw none) (hq : s.proposal e = some q) :
    ((s.setSlot q.slot { s.slot q.slot with proposal := none }).setProposal e none).poolLaw q.change.committed := by
  have linked (e q) (hq : s.proposal e = some q) := h.slots.proposal_of hq
  refine ⟨h.slots.unlinkProposal hq, h.sizes, ?_, ?_, ?_, ?_, ?_, h.leased, h.captured, h.counted, ?_, h.numbers,
    h.distinct⟩
  all_goals simp only [State.slot_setProposal, State.slot_setSlot_ite, State.proposal_setProposal_ite,
    State.proposal_setSlot, State.context_setProposal, State.context_setSlot, State.record_setProposal,
    State.record_setSlot, State.homed]
  · have := h.live; have := h.commit; grind [committed_eq_some]
  · have := h.context; have := h.commit; grind [committed_eq_some]
  · have := h.commit; grind [committed_eq_some]
  · have := h.homed; grind [committed_eq_some, State.homed]
  · have := h.retiring; grind
  · have := h.numbered; grind

/-- A proposal entry is filled and its slot refers to it; a record it commits is PENDING and no longer in hand. -/
theorem linkProposal {e : ProposalIndex} {q : Proposal} {d : TableDef} (h : s.poolLaw q.change.committed)
    (hc : ∀ r, q.change = .commit r → ∃ g c, s.record r = some g ∧ g.slot = q.slot ∧ g.state = .pending c)
    (hf : s.proposal e = none) (hs : (s.slot q.slot).state = .defined d ∨ ∃ r, (s.slot q.slot).state = .live d r)
    (hlt : (s.slot q.slot).fixedLatch = false) (hnb : (s.slot q.slot).build = none)
    (hnp : (s.slot q.slot).proposal = none) :
    ((s.setProposal e (some q)).setSlot q.slot { s.slot q.slot with proposal := some e }).poolLaw none := by
  refine ⟨h.slots.linkProposal hf hs hlt hnb hnp, h.sizes, ?_, ?_, ?_, ?_, ?_, h.leased, h.captured, h.counted, ?_,
    h.numbers, h.distinct⟩
  all_goals simp only [State.slot_setProposal, State.slot_setSlot_ite, State.proposal_setProposal_ite,
    State.proposal_setSlot, State.context_setProposal, State.context_setSlot, State.record_setProposal,
    State.record_setSlot, State.homed]
  · have := h.live; grind
  · have := h.context; grind
  · have := h.commit; grind
  · have := h.homed; grind [committed_eq_some, State.homed]
  · have := h.retiring; grind
  · have := h.numbered; grind

/-- A build context and its slot's reference are cleared; its record is in hand. -/
theorem unlinkBuild {b : Handle} {c : BuildContext} (h : s.poolLaw none) (hc : s.context b = some c) :
    ((s.setContext b none).setSlot c.slot { s.slot c.slot with build := none }).poolLaw (some c.record) := by
  have linked (b c) (hc : s.context b = some c) := h.slots.build_of hc
  refine ⟨h.slots.unlinkBuild hc, h.sizes, ?_, ?_, ?_, ?_, ?_, h.leased, h.captured, h.counted, ?_, h.numbers,
    h.distinct⟩
  all_goals simp only [State.slot_setContext, State.slot_setSlot_ite, State.context_setContext_ite,
    State.proposal_setSlot, State.proposal_setContext, State.context_setSlot, State.record_setContext,
    State.record_setSlot, State.homed]
  · have := h.live; have := h.context; grind
  · have := h.context; grind
  · have := h.commit; have := h.context; grind
  · have := h.homed; grind [State.homed]
  · have := h.retiring; grind
  · have := h.numbered; grind

/-- A build context is filled and its slot refers to it; its record is BUILDING and no longer in hand. -/
theorem linkBuild {b : Handle} {c : BuildContext} {d : TableDef} {n : GenNumber} {g : GenRecord} {m : Nat} {t : Time}
    (h : s.poolLaw (some c.record)) (hr : s.record c.record = some g) (hg : g.state = .building m t)
    (hk : g.slot = c.slot) (hn : n ≠ 0) (hf : s.context b = none)
    (hs : (s.slot c.slot).state = .defined d ∨ ∃ r, (s.slot c.slot).state = .live d r)
    (hlt : (s.slot c.slot).fixedLatch = false) (hnb : (s.slot c.slot).build = none)
    (hnp : (s.slot c.slot).proposal = none) :
    ((s.setContext b (some c)).setSlot c.slot
      { s.slot c.slot with nextNumber := n, build := some b }).poolLaw none := by
  refine ⟨h.slots.linkBuild n hf hs hlt hnb hnp, h.sizes, ?_, ?_, ?_, ?_, ?_, h.leased, h.captured, h.counted, ?_,
    h.numbers, h.distinct⟩
  all_goals simp only [State.slot_setContext, State.slot_setSlot_ite, State.context_setContext_ite,
    State.proposal_setSlot, State.proposal_setContext, State.context_setSlot, State.record_setContext,
    State.record_setSlot, State.homed]
  · have := h.live; grind
  · have := h.context; grind
  · have := h.commit; grind
  · have := h.homed; grind [State.homed]
  · have := h.retiring; grind
  · have := h.numbered; grind

/-- A CURRENT record in hand becomes the current one of its slot; the slot's previous one is in hand then. -/
theorem linkCurrent {r : RecordIndex} {g : GenRecord} {c : Word} {d : TableDef} (latch : Bool)
    (h : s.poolLaw (some r)) (hr : s.record r = some g) (hg : g.state = .current c)
    (hs : (s.slot g.slot).state = .defined d ∨ ∃ r', (s.slot g.slot).state = .live d r')
    (hnb : (s.slot g.slot).build = none) (hnp : (s.slot g.slot).proposal = none) :
    (s.setSlot g.slot { s.slot g.slot with state := .live d r, fixedLatch := latch }).poolLaw
      (s.slot g.slot).state.current := by
  have current (r') : (s.slot g.slot).state.current = some r' ↔ ∃ d, (s.slot g.slot).state = .live d r' :=
    slotState_current_eq_some
  refine ⟨h.slots.setState hnb hnp hnb hnp nofun fun _ => ⟨d, r, rfl⟩, h.sizes, ?_, ?_, ?_, ?_, ?_, h.leased, h.captured,
    h.counted, ?_, h.numbers, h.distinct⟩
  all_goals simp only [State.slot_setSlot_ite, State.proposal_setSlot, State.context_setSlot, State.record_setSlot,
    State.homed]
  · have := h.live; grind
  · have := h.context; have := h.live; grind
  · have := h.commit; have := h.live; grind
  · intro r' g' hr' hx
    by_cases he : r' = r
    · obtain rfl : g' = g := Option.some.inj (hr'.symm.trans (he ▸ hr))
      simp [hg, he]
    · have := h.homed r' g' hr' (by simpa using Ne.symm he)
      grind [State.homed]
  · have := h.retiring; grind
  · have := h.numbered; grind

/-- A LIVE slot becomes RETIRING; its CURRENT record is in hand. -/
theorem unlinkCurrent {k : SlotIndex} {d : TableDef} {r : RecordIndex} (h : s.poolLaw none)
    (hs : (s.slot k).state = .live d r) (hlt : (s.slot k).fixedLatch = false) (hnb : (s.slot k).build = none)
    (hnp : (s.slot k).proposal = none) :
    (s.setSlot k { s.slot k with state := .retiring d }).poolLaw (some r) := by
  refine ⟨h.slots.setState hnb hnp hnb hnp nofun (fun hl => absurd (hlt.symm.trans hl) (by decide)), h.sizes, ?_, ?_, ?_,
    ?_, ?_, h.leased, h.captured, h.counted, ?_, h.numbers, h.distinct⟩
  all_goals simp only [State.slot_setSlot_ite, State.proposal_setSlot, State.context_setSlot, State.record_setSlot,
    State.homed]
  · have := h.live; grind
  · have := h.context; have := h.live; grind
  · have := h.commit; have := h.live; grind
  · have := h.homed; have := h.live; grind [State.homed]
  · have := h.retiring; have := h.live; grind
  · have := h.numbered; grind

/-- The record of a slot just defined or just vacated. -/
def freshSlot (x : SlotState) : SlotRecord :=
  { state := x, nextNumber := 1, build := none, proposal := none, fixedLatch := false }

/-- A slot without a record, but for one in hand, becomes VACANT or DEFINED. -/
theorem resetSlot {k : SlotIndex} {y : SlotState} (h : s.poolLaw x) (hy : y = .vacant ∨ ∃ d, y = .defined d)
    (hr : ∀ r g, s.record r = some g → g.slot = k → x = some r) (hnb : (s.slot k).build = none)
    (hnp : (s.slot k).proposal = none) : (s.setSlot k (freshSlot y)).poolLaw x := by
  refine ⟨h.slots.setState hnb hnp rfl rfl (fun hv => congrArg freshSlot hv) nofun, h.sizes, ?_, ?_, ?_,
    ?_, ?_, h.leased, h.captured, h.counted, ?_, h.numbers, h.distinct⟩
  all_goals simp only [State.slot_setSlot_ite, State.proposal_setSlot, State.context_setSlot, State.record_setSlot,
    State.homed, freshSlot]
  · have := h.live; grind
  · have := h.context; grind
  · have := h.commit; grind
  · have := h.homed; grind [State.homed]
  · have := h.retiring; grind
  · have := h.numbered; grind

/-- A VACANT or DEFINED slot without a build and a proposal has no record. -/
theorem no_record {k : SlotIndex} (h : s.poolLaw none) (hs : (s.slot k).state = .vacant ∨ ∃ d, (s.slot k).state = .defined d)
    (hnb : (s.slot k).build = none) (hnp : (s.slot k).proposal = none) {r : RecordIndex} {g : GenRecord}
    (hr : s.record r = some g) : g.slot ≠ k := by
  rintro rfl
  obtain ⟨hb, hp, hc, hsup⟩ := h.homed r g hr nofun
  cases hg : g.state with
  | building n d =>
    obtain ⟨b, c, hc, -, hk⟩ := hb n d hg
    have := h.slots.build_of hc
    rw [hk, hnb] at this
    cases this
  | pending c =>
    obtain ⟨e, q, hq, -, hk⟩ := hp c hg
    have := h.slots.proposal_of hq
    rw [hk, hnp] at this
    cases this
  | current c =>
    obtain ⟨d, hd⟩ := hc c hg
    simp [hd] at hs
  | superseded c =>
    obtain ⟨-, hd, hv⟩ := hsup c hg
    obtain hs | ⟨d, hs⟩ := hs
    · exact hv hs
    · exact hd d hs

/-! ### Records -/

/-- The leases and lanes that name a record without references: none. -/
theorem not_named {r : RecordIndex} {g : GenRecord} (h : s.poolLaw x) (hr : s.record r = some g)
    (hn : g.refCount = 0) :
    (∀ e l, s.lease e = some l → l.record ≠ r) ∧ ∀ i w c, s.lane i = some w → w.capture = some c → c.record ≠ r := by
  have none_named := h.counted r g hr
  rw [hn] at none_named
  constructor
  · intro e l hl he
    have : (s.leasesWhere fun l => l.record == r) = [] := List.length_eq_zero_iff.1 (by
      simp only [State.leasesNaming] at none_named
      omega)
    have := List.filter_eq_nil_iff.1 this e (List.mem_finRange e)
    simp [hl, he] at this
  · intro i w c hw hc he
    have : ((List.finRange 2).filter fun i => ((s.lane i).bind (·.capture)).any fun c => c.record == r) = [] :=
      List.length_eq_zero_iff.1 (by
        simp only [State.capturesOf] at none_named
        omega)
    have := List.filter_eq_nil_iff.1 this i (List.mem_finRange i)
    simp [hw, hc, he] at this

/-- A record in hand that no lease and no lane names is freed; a RETIRING slot keeps another one. -/
theorem clear {r : RecordIndex} {g : GenRecord} (h : s.poolLaw (some r)) (hr : s.record r = some g)
    (hn : g.refCount = 0)
    (hk : ∀ d, (s.slot g.slot).state = .retiring d → ∃ r' g', r' ≠ r ∧ s.record r' = some g' ∧ g'.slot = g.slot) :
    (s.setRecord r none).poolLaw none := by
  obtain ⟨leases, lanes⟩ := h.not_named hr hn
  refine ⟨{ h.slots with }, ?_, ?_, ?_, ?_, ?_, ?_, ?_, ?_, ?_, h.numbered, ?_, ?_⟩
  all_goals simp only [State.record_setRecord_ite, State.slot_setRecord, State.context_setRecord,
    State.proposal_setRecord, State.lease_setRecord, State.lane_setRecord]
  · have := h.sizes; grind
  · have := h.live; grind
  · have := h.context; grind
  · have := h.commit; grind
  · intro r' g' hg' _
    split at hg'
    · cases hg'
    · next hne => exact h.homed r' g' hg' (by simpa using Ne.symm hne)
  · have := h.retiring; grind
  · have := h.leased; grind
  · have := h.captured; grind
  · intro r' g' hg'
    split at hg'
    · cases hg'
    · exact h.counted r' g' hg'
  · have := h.numbers; grind
  · have := h.distinct; grind

/-- A record in hand is changed but for its slot, its number and its references. -/
theorem rework {r : RecordIndex} {g g' : GenRecord} (h : s.poolLaw (some r)) (hr : s.record r = some g)
    (hs : g'.slot = g.slot) (hn : g'.number = g.number) (hc : g'.refCount = g.refCount) (hz : g'.sizeLaw)
    (hm : g.mayBeNamed → g'.mayBeNamed) : (s.setRecord r (some g')).poolLaw (some r) := by
  refine ⟨{ h.slots with }, ?_, ?_, ?_, ?_, ?_, ?_, ?_, ?_, ?_, h.numbered, ?_, ?_⟩
  all_goals simp only [State.record_setRecord_ite, State.slot_setRecord, State.context_setRecord,
    State.proposal_setRecord, State.lease_setRecord, State.lane_setRecord]
  · have := h.sizes; grind
  · have := h.live; grind
  · have := h.context; grind
  · have := h.commit; grind
  · intro r' y hy hne
    rw [if_neg (by simpa using Ne.symm hne)] at hy
    exact h.homed r' y hy hne
  · have := h.retiring; grind
  · have := h.leased; grind
  · have := h.captured; grind
  · intro r' y hy
    split at hy
    · next he => exact (Option.some.inj hy) ▸ hc.trans (he ▸ h.counted r g hr)
    · exact h.counted r' y hy
  · have := h.numbers; grind
  · have := h.distinct; grind

/-- A FREE record is taken into use, and in hand, without references and under a number that is new to its slot. -/
theorem introduce {r : RecordIndex} {g : GenRecord} (h : s.poolLaw none) (hr : s.record r = none)
    (hc : g.refCount = 0) (hz : g.sizeLaw) (hn : g.number ≠ 0)
    (hf : ∀ r' g', s.record r' = some g' → g'.slot = g.slot → g'.number ≠ g.number) :
    (s.setRecord r (some g)).poolLaw (some r) := by
  have leases (e : LeaseIndex) : (s.lease e).any (fun l => l.record == r) = false := by
    cases hl : s.lease e with
    | none => rfl
    | some l =>
      obtain ⟨g', hg', -⟩ := h.leased e l hl
      simp only [Option.any_some, beq_eq_false_iff_ne]
      rintro rfl
      rw [hr] at hg'
      cases hg'
  have lanes (i : LaneIndex) : ((s.lane i).bind (·.capture)).any (fun c => c.record == r) = false := by
    cases hl : (s.lane i).bind (·.capture) with
    | none => rfl
    | some c =>
      obtain ⟨w, hw, hc⟩ := Option.bind_eq_some_iff.1 hl
      obtain ⟨g', hg', -⟩ := h.captured i w c hw hc
      simp only [Option.any_some, beq_eq_false_iff_ne]
      rintro rfl
      rw [hr] at hg'
      cases hg'
  refine ⟨{ h.slots with }, ?_, ?_, ?_, ?_, ?_, ?_, ?_, ?_, ?_, h.numbered, ?_, ?_⟩
  all_goals simp only [State.record_setRecord_ite, State.slot_setRecord, State.context_setRecord,
    State.proposal_setRecord, State.lease_setRecord, State.lane_setRecord]
  · have := h.sizes; grind
  · have := h.live; grind
  · have := h.context; grind
  · have := h.commit; grind
  · intro r' y hy hne
    rw [if_neg (by simpa using Ne.symm hne)] at hy
    exact h.homed r' y hy nofun
  · have := h.retiring; grind
  · have := h.leased; grind
  · have := h.captured; grind
  · intro r' y hy
    split at hy
    · next he =>
      rw [← Option.some.inj hy, hc, he]
      show 0 = s.leasesNaming r + s.capturesOf r
      simp only [State.leasesNaming, State.leasesWhere, State.capturesOf, leases, lanes]
      simp
    · exact h.counted r' y hy
  · have := h.numbers; grind
  · have := h.distinct; grind

end State.poolLaw
end Sys2Proof.Machine
end

section
/-! References and the freeing of records in the law of the generation pool (R8, R9, R10). -/

namespace Sys2Proof.Machine

/-! ### What freeing a record does -/

theorem slotInUse_iff {s : State} {k : SlotIndex} : s.slotInUse k = true ↔ ∃ r g, s.record r = some g ∧ g.slot = k := by
  simp only [State.slotInUse, List.any_eq_true, List.mem_finRange, true_and]
  refine exists_congr fun r => ?_
  cases h : s.record r <;> simp

/-- The record is the last one in use of its slot. -/
def State.lastOfSlot (s : State) (r : RecordIndex) (g : GenRecord) : Prop :=
  ∀ r' g', r' ≠ r → s.record r' = some g' → g'.slot ≠ g.slot

/-- What decides whether the slot of a record that is freed becomes VACANT (R57). -/
theorem freeRecord_eq {s : State} {r : RecordIndex} {g : GenRecord} (hr : s.record r = some g) :
    ((g.state.isSuperseded = true ∧ (∃ d, (s.slot g.slot).state = .retiring d) ∧ s.lastOfSlot r g) →
      s.freeRecord r = ((s.returnBlocks g.blocks).setRecord r none).setSlot g.slot SlotRecord.vacant)
    ∧ (¬(g.state.isSuperseded = true ∧ (∃ d, (s.slot g.slot).state = .retiring d) ∧ s.lastOfSlot r g) →
      s.freeRecord r = (s.returnBlocks g.blocks).setRecord r none) := by
  have slot : ((s.returnBlocks g.blocks).setRecord r none).slot g.slot = s.slot g.slot := by
    rw [returnBlocks_frame]; rfl
  have record (r' : RecordIndex) : ((s.returnBlocks g.blocks).setRecord r none).record r'
      = if r' = r then none else s.record r' := by
    rw [State.record_setRecord_ite, returnBlocks_frame]; rfl
  have last : ((s.returnBlocks g.blocks).setRecord r none).slotInUse g.slot = false ↔ s.lastOfSlot r g := by
    rw [← Bool.not_eq_true, slotInUse_iff]
    simp only [record, State.lastOfSlot]
    grind
  have vacates : (g.state.isSuperseded && (((s.returnBlocks g.blocks).setRecord r none).slot g.slot).state.isRetiring
      && !((s.returnBlocks g.blocks).setRecord r none).slotInUse g.slot) = true
      ↔ g.state.isSuperseded = true ∧ (∃ d, (s.slot g.slot).state = .retiring d) ∧ s.lastOfSlot r g := by
    rw [slot, Bool.and_eq_true, Bool.and_eq_true, Bool.not_eq_true', last, isRetiring_iff, and_assoc]
  unfold State.freeRecord
  rw [hr]
  dsimp only
  exact ⟨fun h => if_pos (vacates.2 h), fun h => if_neg (fun hv => h (vacates.1 hv))⟩

/-- Settles O19. -/
theorem droppedReferenceFreesSuperseded : Obligations.DroppedReferenceFreesSuperseded := by
  intro s r g hr hn hb
  have dropped : s.dropReference r =
      if g.state.isSuperseded && g.refCount - 1 == 0 then
        (s.setRecord r (some { g with refCount := g.refCount - 1 })).freeRecord r
      else s.setRecord r (some { g with refCount := g.refCount - 1 }) := by
    simp only [State.dropReference, hr]
  refine ⟨fun h => ?_, fun h1 hs => ?_⟩
  · rw [dropped, if_neg]
    · rfl
    · rw [Bool.and_eq_true, beq_iff_eq]
      rintro ⟨hs, hz⟩
      obtain h | h := h
      · exact h (by omega)
      · exact absurd (hs.symm.trans h) (by decide)
  · rw [dropped, if_pos (by simp [hs, h1])]
    have counted := State.record_setRecord_self s r (some { g with refCount := g.refCount - 1 })
    have last : (s.setRecord r (some { g with refCount := g.refCount - 1 })).lastOfSlot r
        { g with refCount := g.refCount - 1 } ↔ ∀ r' g', r' ≠ r → s.record r' = some g' → g'.slot ≠ g.slot :=
      forall_congr' fun r' => forall_congr' fun g' => forall_congr' fun hne => by
        rw [State.record_setRecord_ne _ _ hne]
    have freed : ((s.setRecord r (some { g with refCount := g.refCount - 1 })).returnBlocks g.blocks).setRecord r none
        = { s.setRecord r none with
            freeList := s.freeList ++ g.blocks
            storeLowArmed := s.storeLowArmed || decide (64 ≤ (s.freeList ++ g.blocks).length) } := by
      rw [returnBlocks_of_ne_nil _ hb]
      simp [State.setRecord]
    obtain ⟨vacated, kept⟩ := freeRecord_eq counted
    refine ⟨fun hd hl => (vacated ⟨hs, hd, last.2 hl⟩).trans ?_, fun hl => (kept fun ⟨_, hd, hl'⟩ => hl ⟨hd, last.1 hl'⟩).trans freed⟩
    exact congrArg (State.setSlot · g.slot SlotRecord.vacant) freed

namespace State.poolLaw

variable {s : State} {x : Option RecordIndex}

/-- A record in hand is freed (R8, R57). -/
theorem freeRecord {r : RecordIndex} {g : GenRecord} (h : s.poolLaw (some r)) (hr : s.record r = some g)
    (hn : g.refCount = 0) (hs : g.state.isSuperseded = true ∨ ∀ d, (s.slot g.slot).state ≠ .retiring d) :
    (s.freeRecord r).poolLaw none := by
  obtain ⟨vacated, kept⟩ := freeRecord_eq hr
  by_cases hv : g.state.isSuperseded = true ∧ (∃ d, (s.slot g.slot).state = .retiring d) ∧ s.lastOfSlot r g
  · obtain ⟨hsup, ⟨d, hd⟩, hlast⟩ := hv
    obtain ⟨hnb, hnp, -⟩ := h.slots.retiring _ _ hd
    have reset := h.resetSlot (k := g.slot) (.inl rfl)
      (fun r' g' hr' hk => by
        by_cases he : r' = r
        · exact congrArg some he.symm
        · exact absurd hk (hlast r' g' he hr')) hnb hnp
    have cleared := reset.clear hr hn (by simp [freshSlot])
    rw [vacated ⟨hsup, ⟨d, hd⟩, hlast⟩]
    rw [returnBlocks_frame]
    exact cleared.of_blocks s.store _ _
  · rw [kept hv]
    have cleared := h.clear hr hn fun d hd => by
      by_contra hlast
      refine hv ⟨hs.resolve_right fun hs => hs d hd, ⟨d, hd⟩, fun r' g' hne hg' hk => hlast ⟨r', g', hne, hg', hk⟩⟩
    rw [returnBlocks_frame]
    exact cleared.of_blocks s.store _ _

end State.poolLaw
end Sys2Proof.Machine
end

section
/-! Reference counts (R9): leases and captures that begin and end. -/

namespace Sys2Proof.Machine

/-! ### Counting -/

/-- A count over the indices of a table when one entry changes. -/
theorem length_filter_update {n : Nat} {f f' : Fin n → Bool} {i : Fin n} (h : ∀ j, j ≠ i → f' j = f j) :
    ((List.finRange n).filter f').length + (f i).toNat = ((List.finRange n).filter f).length + (f' i).toNat := by
  have split (p : Fin n → Bool) : ((List.finRange n).filter p).length
      = (((List.finRange n).erase i).filter p).length + (p i).toNat := by
    rw [((List.perm_cons_erase (List.mem_finRange i)).filter p).length_eq, List.filter_cons]
    cases p i <;> simp
  have rest : ((List.finRange n).erase i).filter f' = ((List.finRange n).erase i).filter f :=
    List.filter_congr fun j hj => h j ((List.nodup_finRange n).mem_erase_iff.1 hj).1
  rw [split f, split f', rest]
  omega

/-- Whether a lease entry names a record. -/
def leaseNames (r : RecordIndex) (l : Option Lease) : Bool := l.any (fun l => l.record == r)

/-- Whether a lane has captured a record. -/
def laneNames (r : RecordIndex) (w : Option LaneWork) : Bool := (w.bind (·.capture)).any (fun c => c.record == r)

theorem leaseNames_some (r : RecordIndex) (l : Lease) :
    (leaseNames r (some l)).toNat = if r = l.record then 1 else 0 := by
  obtain rfl | h := eq_or_ne l.record r
  · simp [leaseNames]
  · simp [leaseNames, h, h.symm]

theorem laneNames_capture {r : RecordIndex} {w : Option LaneWork} {c : Capture} (h : w.bind (·.capture) = some c) :
    (laneNames r w).toNat = if r = c.record then 1 else 0 := by
  obtain rfl | hr := eq_or_ne c.record r
  · simp [laneNames, h]
  · simp [laneNames, h, hr, hr.symm]

theorem leasesNaming_setLease (s : State) (e : LeaseIndex) (x : Option Lease) (r : RecordIndex) :
    (s.setLease e x).leasesNaming r + (leaseNames r (s.lease e)).toNat
      = s.leasesNaming r + (leaseNames r x).toNat := by
  have := length_filter_update (f := fun e => leaseNames r (s.lease e))
    (f' := fun e' => leaseNames r ((s.setLease e x).lease e')) (i := e)
    (fun j hj => by rw [State.lease_setLease_ite, if_neg hj])
  rw [State.lease_setLease_self] at this
  exact this

theorem capturesOf_setLane (s : State) (i : LaneIndex) (x : Option LaneWork) (r : RecordIndex) :
    (s.setLane i x).capturesOf r + (laneNames r (s.lane i)).toNat = s.capturesOf r + (laneNames r x).toNat := by
  have := length_filter_update (f := fun i => laneNames r (s.lane i))
    (f' := fun j => laneNames r ((s.setLane i x).lane j)) (i := i)
    (fun j hj => by rw [State.lane_setLane_ite, if_neg hj])
  rw [State.lane_setLane_self] at this
  exact this

/-- The leases and lanes replaced. -/
def State.setNames (s : State) (leases : Vector (Option Lease) 32) (lanes : Vector (Option LaneWork) 2) : State :=
  { s with leases := leases, lanes := lanes }

@[simp] theorem State.slot_setNames (s : State) (leases : Vector (Option Lease) 32) (lanes : Vector (Option LaneWork) 2)
    (k : SlotIndex) : (s.setNames leases lanes).slot k = s.slot k := rfl
@[simp] theorem State.context_setNames (s : State) (leases : Vector (Option Lease) 32)
    (lanes : Vector (Option LaneWork) 2) (b : Handle) : (s.setNames leases lanes).context b = s.context b := rfl
@[simp] theorem State.proposal_setNames (s : State) (leases : Vector (Option Lease) 32)
    (lanes : Vector (Option LaneWork) 2) (e : ProposalIndex) :
    (s.setNames leases lanes).proposal e = s.proposal e := rfl

namespace State.poolLaw

variable {s : State}

/-- Leases and captures of one record change, and its count with them. -/
theorem recount {x : Option RecordIndex} (h : s.poolLaw x) (leases : Vector (Option Lease) 32)
    (lanes : Vector (Option LaneWork) 2) {r : RecordIndex} {g : GenRecord} {n : Nat} (hr : s.record r = some g)
    (hm : g.mayBeNamed) (hx : x ≠ some r → ∀ c, g.state = .superseded c → n ≠ 0)
    (hl : ∀ (e : LeaseIndex) l, leases[e] = some l → s.lease e = some l ∨ l.record = r ∧ l.slot = g.slot)
    (hw : ∀ (i : LaneIndex) w c, lanes[i] = some w → w.capture = some c →
      (∃ w', s.lane i = some w' ∧ w'.capture = some c) ∨ c.record = r)
    (hn : ∀ r', (s.setNames leases lanes).leasesNaming r'
        + (s.setNames leases lanes).capturesOf r'
      = if r' = r then n else s.leasesNaming r' + s.capturesOf r') :
    ((s.setNames leases lanes).setRecord r
      (some { g with refCount := n })).poolLaw x := by
  have record (r' : RecordIndex) : ((s.setNames leases lanes).setRecord r
      (some { g with refCount := n })).record r' = if r' = r then some { g with refCount := n } else s.record r' :=
    State.record_setRecord_ite ..
  refine ⟨{ h.slots with }, ?_, ?_, ?_, ?_, ?_, ?_, fun e l he => ?_, fun i w c hi hc => ?_, ?_, h.numbered, ?_, ?_⟩
  all_goals simp only [record, State.slot_setRecord, State.context_setRecord, State.proposal_setRecord,
    State.slot_setNames, State.context_setNames, State.proposal_setNames]
  · intro r' g' hg'
    split at hg'
    · rw [← Option.some.inj hg']; exact h.sizes r g hr
    · exact h.sizes r' g' hg'
  · have := h.live; grind
  · have := h.context; grind
  · have := h.commit; grind
  · intro r' g' hg' hne
    split at hg'
    · next he =>
      obtain ⟨hb, hp, hc, hsup⟩ := h.homed r g hr (he ▸ hne)
      rw [← Option.some.inj hg', he]
      exact ⟨hb, hp, hc, fun c hs => ⟨hx (he ▸ hne) c hs, (hsup c hs).2⟩⟩
    · exact h.homed r' g' hg' hne
  · have := h.retiring; grind
  · obtain hl | ⟨hlr, hls⟩ := hl e l he
    · have := h.leased e l hl; grind [GenRecord.mayBeNamed]
    · exact ⟨_, if_pos hlr, hls.symm, hm⟩
  · obtain ⟨w', hw', hc'⟩ | hcr := hw i w c hi hc
    · have := h.captured i w' c hw' hc'; grind [GenRecord.mayBeNamed]
    · exact ⟨_, if_pos hcr, hm⟩
  · intro r' g' hg'
    refine Eq.trans ?_ (hn r').symm
    split at hg'
    · next he => rw [← Option.some.inj hg', if_pos he]
    · next he => rw [if_neg he]; exact h.counted r' g' hg'
  · have := h.numbers; grind
  · have := h.distinct; grind

/-- A lease begins (R105). -/
theorem hold {e : LeaseIndex} {l : Lease} {d : TableDef} (h : s.poolLaw none)
    (hs : (s.slot l.slot).state = .live d l.record) (he : s.lease e = none) :
    ((s.setLease e (some l)).raiseReference l.record).poolLaw none := by
  obtain ⟨-, g, c, hr, hk, hc⟩ := h.live _ _ _ hs
  rw [raiseReference_of_some (s := s.setLease e (some l)) hr]
  refine h.recount (s.setLease e (some l)).leases s.lanes hr (mayBeNamed_iff.2 (.inl ⟨c, hc⟩)) (fun _ _ _ => by omega)
    (fun e' l' hl' => ?_) (fun i w c hi hc => .inl ⟨w, hi, hc⟩) fun r' => ?_
  · have hl' : (s.setLease e (some l)).lease e' = some l' := hl'
    rw [State.lease_setLease_ite] at hl'
    split at hl'
    · obtain rfl := Option.some.inj hl'
      exact .inr ⟨rfl, hk.symm⟩
    · exact .inl hl'
  · have count := leasesNaming_setLease s e (some l) r'
    rw [he, leaseNames_some, show (leaseNames r' none).toNat = 0 from rfl] at count
    show (s.setLease e (some l)).leasesNaming r' + s.capturesOf r' = _
    have := h.counted l.record g hr
    grind

/-- A lookup captures a record (R28). -/
theorem capture {i : LaneIndex} {c : Capture} {g : GenRecord} (w : LaneWork) (h : s.poolLaw none)
    (hr : s.record c.record = some g) (hm : g.mayBeNamed) (hi : (s.lane i).bind (·.capture) = none) :
    ((s.raiseReference c.record).setLane i (some { w with capture := some c })).poolLaw none := by
  rw [raiseReference_of_some hr]
  refine h.recount s.leases (s.setLane i (some { w with capture := some c })).lanes hr hm (fun _ _ _ => by omega)
    (fun e l hl => .inl hl) (fun j w' c' hj hc' => ?_) fun r' => ?_
  · have hj : (s.setLane i (some { w with capture := some c })).lane j = some w' := hj
    rw [State.lane_setLane_ite] at hj
    split at hj
    · obtain rfl := Option.some.inj hj
      exact .inr (congrArg Capture.record (Option.some.inj hc').symm)
    · exact .inl ⟨w', hj, hc'⟩
  · have count := capturesOf_setLane s i (some { w with capture := some c }) r'
    rw [laneNames, hi, laneNames_capture (w := some { w with capture := some c }) rfl,
      show (Option.any (fun c : Capture => c.record == r') none).toNat = 0 from rfl] at count
    show s.leasesNaming r' + (s.setLane i (some { w with capture := some c })).capturesOf r' = _
    have := h.counted c.record g hr
    grind

/-- One name of a record ends, and a reference with it; a SUPERSEDED record left with none is freed (R9, R10). -/
theorem dropReference (h : s.poolLaw none) (leases : Vector (Option Lease) 32) (lanes : Vector (Option LaneWork) 2)
    {r : RecordIndex} {g : GenRecord} (hr : s.record r = some g) (hm : g.mayBeNamed)
    (hl : ∀ (e : LeaseIndex) l, leases[e] = some l → s.lease e = some l)
    (hw : ∀ (i : LaneIndex) w, lanes[i] = some w → s.lane i = some w)
    (hn : ∀ r', (s.setNames leases lanes).leasesNaming r'
        + (s.setNames leases lanes).capturesOf r' + (if r' = r then 1 else 0)
      = s.leasesNaming r' + s.capturesOf r') :
    ((s.setNames leases lanes).dropReference r).poolLaw none := by
  have record : (s.setNames leases lanes).record r = some g := hr
  have counted := h.counted r g hr
  have hn' (r' : RecordIndex) := hn r'
  have dropped {x : Option RecordIndex} (hx : s.poolLaw x) (hz : x ≠ some r → ∀ c, g.state = .superseded c →
      g.refCount - 1 ≠ 0) := hx.recount leases lanes (n := g.refCount - 1) hr hm hz (fun e l he => .inl (hl e l he))
    (fun i w c hi hc => .inl ⟨w, hw i w hi, hc⟩) fun r' => by
      have := hn r'
      split
      · next he => rw [if_pos he, he] at this; rw [he]; omega
      · next he => rw [if_neg he] at this; omega
  unfold State.dropReference
  rw [record]
  dsimp only
  split
  · next hz =>
    rw [Bool.and_eq_true, beq_iff_eq] at hz
    obtain ⟨hs, hz⟩ := hz
    obtain ⟨c, hc⟩ := isSuperseded_iff.1 hs
    exact (dropped (h.takeUp hr hc) (fun hne => absurd rfl hne)).freeRecord (State.record_setRecord_self ..) hz (.inl hs)
  · next hz =>
    refine dropped h fun _ c hc hzero => hz ?_
    rw [Bool.and_eq_true, beq_iff_eq]
    exact ⟨isSuperseded_iff.2 ⟨c, hc⟩, hzero⟩

/-- A lease ends (R108, R110, R114). -/
theorem removeLease (h : s.poolLaw none) (e : LeaseIndex) : (s.removeLease e).poolLaw none := by
  unfold State.removeLease
  split
  · exact h
  · rename_i l hl
    obtain ⟨g, hr, -, hm⟩ := h.leased e l hl
    refine h.dropReference (s.setLease e none).leases s.lanes hr hm (fun e' l' hl' => ?_) (fun i w hi => hi) fun r' => ?_
    · have hl' : (s.setLease e none).lease e' = some l' := hl'
      rw [State.lease_setLease_ite] at hl'
      split at hl'
      · cases hl'
      · exact hl'
    · have count := leasesNaming_setLease s e none r'
      rw [hl, leaseNames_some, show (leaseNames r' none).toNat = 0 from rfl] at count
      show (s.setLease e none).leasesNaming r' + s.capturesOf r' + _ = _
      omega

/-- A lookup in flight ends (R38). -/
theorem release {i : LaneIndex} {c : Capture} (h : s.poolLaw none) (hi : (s.lane i).bind (·.capture) = some c) :
    ((s.setLane i none).dropReference c.record).poolLaw none := by
  obtain ⟨w, hw, hc⟩ := Option.bind_eq_some_iff.1 hi
  obtain ⟨g, hr, hm⟩ := h.captured i w c hw hc
  refine h.dropReference s.leases (s.setLane i none).lanes hr hm (fun e l hl => hl) (fun j w' hj => ?_) fun r' => ?_
  · have hj : (s.setLane i none).lane j = some w' := hj
    rw [State.lane_setLane_ite] at hj
    split at hj
    · cases hj
    · exact hj
  · have count := capturesOf_setLane s i none r'
    rw [laneNames_capture hi, show (laneNames r' none).toNat = 0 from rfl] at count
    show s.leasesNaming r' + (s.setLane i none).capturesOf r' + _ = _
    omega

end State.poolLaw
end Sys2Proof.Machine
end

section
/-! The operations of chapters 4 and 5 in the law of the generation pool: builds, adoptions, openings and resolutions. -/

namespace Sys2Proof.Machine

theorem setGenState_of_some {s : State} {r : RecordIndex} {g : GenRecord} (h : s.record r = some g) (x : GenState) :
    s.setGenState r x = s.setRecord r (some { g with state := x }) := by
  simp only [State.setGenState, h]

namespace State.poolLaw

variable {s : State} {x : Option RecordIndex}

/-- The law with nothing in hand passes to a state with the same tables. -/
theorem of_sameTables {t : State} (h : s.poolLaw none) (hr : s.isRunning = true) (hst : SameTables s t) :
    t.poolLaw none := by
  have hr' : t.isRunning = true := hst.isRunning.trans hr
  exact (generationLaw_iff hr').1 (hst.generationLaw (.inl hr') ((generationLaw_iff hr).2 h))

/-- A record that no lease and no lane may name has no references (R9). -/
theorem refCount_eq_zero {r : RecordIndex} {g : GenRecord} (h : s.poolLaw x) (hr : s.record r = some g)
    (hm : ¬ g.mayBeNamed) : g.refCount = 0 := by
  have leases : s.leasesNaming r = 0 := by
    refine List.length_eq_zero_iff.2 (List.filter_eq_nil_iff.2 fun e _ hn => ?_)
    obtain ⟨l, hl, hlr⟩ := (Option.any_eq_true _ _).1 hn
    obtain ⟨g', hg', -, hm'⟩ := h.leased e l hl
    rw [beq_iff_eq.1 hlr, hr] at hg'
    exact hm (Option.some.inj hg' ▸ hm')
  have lanes : s.capturesOf r = 0 := by
    refine List.length_eq_zero_iff.2 (List.filter_eq_nil_iff.2 fun i _ hn => ?_)
    obtain ⟨c, hc, hcr⟩ := (Option.any_eq_true _ _).1 hn
    obtain ⟨w, hw, hc⟩ := Option.bind_eq_some_iff.1 hc
    obtain ⟨g', hg', hm'⟩ := h.captured i w c hw hc
    rw [beq_iff_eq.1 hcr, hr] at hg'
    exact hm (Option.some.inj hg' ▸ hm')
  rw [h.counted r g hr, leases, lanes]

/-! ### Adoption -/

/-- A CURRENT record in hand is superseded (R10). -/
theorem supersede {r : RecordIndex} {g : GenRecord} {c : Word} (h : s.poolLaw (some r)) (hr : s.record r = some g)
    (hg : g.state = .current c) (hd : ∀ d, (s.slot g.slot).state ≠ .defined d)
    (hv : (s.slot g.slot).state ≠ .vacant) : (s.supersede r).poolLaw none := by
  have size : ({ g with state := .superseded (g.state.checksum.getD 0) } : GenRecord).sizeLaw := by
    simpa only [GenRecord.sizeLaw, hg] using h.sizes r g hr
  have superseded : (s.setRecord r (some { g with state := .superseded (g.state.checksum.getD 0) })).poolLaw (some r) :=
    h.rework hr rfl rfl rfl size fun _ => .inr rfl
  have record := State.record_setRecord_self s r (some { g with state := .superseded (g.state.checksum.getD 0) })
  unfold State.supersede
  rw [hr]
  dsimp only
  rw [setGenState_of_some hr]
  split
  · next hz => exact superseded.freeRecord record (by simpa using hz) (.inl rfl)
  · next hz =>
    refine superseded.putDown fun g' hg' => ?_
    obtain rfl := Option.some.inj (hg'.symm.trans record)
    exact ⟨nofun, nofun, nofun, fun _ _ => ⟨by simpa using hz, hd, hv⟩⟩

/-- The adoption of a COMMIT whose PENDING record is in hand (R91). -/
theorem adoptCommit {r : RecordIndex} {g : GenRecord} {c : Word} {d : TableDef} (h : s.poolLaw (some r))
    (hr : s.record r = some g) (hg : g.state = .pending c)
    (hs : (s.slot g.slot).state = .defined d ∨ ∃ r', (s.slot g.slot).state = .live d r')
    (hnb : (s.slot g.slot).build = none) (hnp : (s.slot g.slot).proposal = none) :
    (s.adoptCommit g.slot r).poolLaw none := by
  have size : ({ g with state := .current (g.state.checksum.getD 0) } : GenRecord).sizeLaw := by
    simpa only [GenRecord.sizeLaw, hg] using h.sizes r g hr
  have current : (s.setRecord r (some { g with state := .current (g.state.checksum.getD 0) })).poolLaw (some r) :=
    h.rework hr rfl rfl rfl size fun _ => .inl rfl
  have record := State.record_setRecord_self s r (some { g with state := .current (g.state.checksum.getD 0) })
  have linked (latch : Bool) := current.linkCurrent (d := d) latch record rfl hs hnb hnp
  unfold State.adoptCommit
  rw [hr]
  dsimp only
  rw [setGenState_of_some hr]
  obtain hs | ⟨old, hs⟩ := hs
  · rw [hs]
    have := linked ((s.slot g.slot).fixedLatch || decide (g.slot.val < s.inUse.fixedSlots))
    rwa [State.slot_setRecord, hs] at this
  · rw [hs]
    have := linked ((s.slot g.slot).fixedLatch || decide (g.slot.val < s.inUse.fixedSlots))
    rw [State.slot_setRecord, hs] at this
    obtain ⟨hne, g', c', hg', hk, hc'⟩ := h.live g.slot d old hs
    have hne : old ≠ r := fun he => hne (congrArg some he.symm)
    refine this.supersede (r := old) (g := g') (c := c') ?_ hc' (fun d' => ?_) ?_
    · rw [State.record_setSlot, State.record_setRecord_ne _ _ hne, hg']
    · rw [hk]; simp
    · rw [hk]; simp

/-- The adoption of a RETIRE (R92). -/
theorem adoptRetire {k : SlotIndex} {d : TableDef} (h : s.poolLaw none)
    (hs : (s.slot k).state = .defined d ∨ ∃ r, (s.slot k).state = .live d r) (hlt : (s.slot k).fixedLatch = false)
    (hnb : (s.slot k).build = none) (hnp : (s.slot k).proposal = none) : (s.adoptRetire k).poolLaw none := by
  unfold State.adoptRetire
  obtain hs | ⟨r, hs⟩ := hs
  · rw [hs]
    exact h.resetSlot (.inl rfl) (fun r g hr hk => absurd hk (h.no_record (.inr ⟨d, hs⟩) hnb hnp hr)) hnb hnp
  · rw [hs]
    obtain ⟨-, g, c, hr, rfl, hg⟩ := h.live k d r hs
    exact (h.unlinkCurrent hs hlt hnb hnp).supersede hr hg (fun d' => by simp) (by simp)

/-- What an adoption and an opening ask of the slot: a definition, and neither latch nor references. -/
structure Ready (s : State) (k : SlotIndex) : Prop where
  state : ∃ d, (s.slot k).state = .defined d ∨ ∃ r, (s.slot k).state = .live d r
  latch : (s.slot k).fixedLatch = false
  build : (s.slot k).build = none
  proposal : (s.slot k).proposal = none

/-- What an adoption and an opening ask of the record to commit: it is PENDING on the slot. -/
def Offered (s : State) (k : SlotIndex) (c : Change) : Prop :=
  ∀ r, c = .commit r → ∃ g w, s.record r = some g ∧ g.slot = k ∧ g.state = .pending w

theorem adopt {k : SlotIndex} {c : Change} (h : s.poolLaw c.committed) (hk : Ready s k) (hc : Offered s k c) :
    (s.adopt k c).poolLaw none := by
  obtain ⟨⟨d, hs⟩, hlt, hnb, hnp⟩ := hk
  cases c with
  | commit r =>
    obtain ⟨g, w, hr, rfl, hg⟩ := hc r rfl
    exact h.adoptCommit hr hg hs hnb hnp
  | retire => exact h.adoptRetire hs hlt hnb hnp

/-- A change is opened: adopted at once, or held in a proposal entry (R82). -/
theorem openChange {k : SlotIndex} {c : Change} {p : Port} (n : Session) (hrun : s.isRunning = true)
    (h : s.poolLaw c.committed) (hk : Ready s k) (hc : Offered s k c)
    (he : needsEntry (s.maskOf k (·.approvers)) p = true → s.freeProposalIndex ≠ none) :
    (s.openChange k c p n).1.poolLaw none := by
  unfold State.openChange
  dsimp only
  split
  · next hn =>
    split
    · next hf => exact absurd hf (he hn)
    · next e hf =>
      obtain ⟨⟨d, hs⟩, hlt, hnb, hnp⟩ := hk
      dsimp only
      refine of_sameTables ?_ ?_ (.of_deliverWhere ..)
      · exact h.linkProposal (q := { slot := k, change := c, .. }) hc (freeProposalIndex_eq_some.1 hf).1 hs hlt hnb hnp
      · exact hrun
  · have running : (s.adopt k c).isRunning = true := by rw [adopt_frame]; exact hrun
    exact (h.adopt hk hc).of_sameTables running (.of_announceChange ..)

/-! ### Builds -/

/-- A slot with a build is ready once the build's reference is cleared. -/
theorem state_of_build (h : s.slotLaw) {b : Handle} {c : BuildContext} (hc : s.context b = some c) :
    (∃ d, (s.slot c.slot).state = .defined d ∨ ∃ r, (s.slot c.slot).state = .live d r)
      ∧ (s.slot c.slot).fixedLatch = false ∧ (s.slot c.slot).proposal = none := by
  have hb := h.build_of hc
  have linked : (s.slot c.slot).build ≠ none ∨ (s.slot c.slot).proposal ≠ none := .inl (by simp [hb])
  exact ⟨h.state_of_linked linked, h.latch_of_linked linked, (h.notBoth c.slot).resolve_left (by simp [hb])⟩

theorem not_mayBeNamed_of_building {g : GenRecord} {n : Nat} {d : Time} (h : g.state = .building n d) :
    ¬ g.mayBeNamed := by
  simp [mayBeNamed_iff, h]

theorem not_mayBeNamed_of_pending {g : GenRecord} {c : Word} (h : g.state = .pending c) : ¬ g.mayBeNamed := by
  simp [mayBeNamed_iff, h]

/-- A build is discarded (R63). -/
theorem discardBuild (h : s.poolLaw none) (b : Handle) : (s.discardBuild b).poolLaw none := by
  unfold State.discardBuild
  split
  · exact h
  · rename_i c hc
    obtain ⟨-, g, n, d, hr, hk, hg⟩ := h.context b c hc
    obtain ⟨⟨def', hs⟩, -, -⟩ := state_of_build h.slots hc
    have cleared := (h.unlinkBuild hc).clear (r := c.record) hr (h.refCount_eq_zero hr (not_mayBeNamed_of_building hg))
      (fun d' hd' => by
        rw [State.slot_setSlot_ite, hk, if_pos rfl] at hd'
        obtain hs | ⟨r, hs⟩ := hs <;> simp [hs] at hd')
    dsimp only
    rw [(freeRecord_eq hr).2 (fun ⟨hsup, _⟩ => by simp [hg, GenState.isSuperseded] at hsup), returnBlocks_frame]
    exact cleared.of_blocks s.store _ _

/-- An accepted CLOSE_BUILD up to the opening of its change (R70): the record is PENDING, and in hand. -/
theorem finishBuild {b : Handle} {c : BuildContext} {g : GenRecord} (w : Word) (h : s.poolLaw none)
    (hc : s.context b = some c) (hr : s.record c.record = some g) (hn : 2 ≤ g.pointCount) :
    (s.finishBuild b c g w).poolLaw (some c.record)
      ∧ Ready (s.finishBuild b c g w) c.slot
      ∧ Offered (s.finishBuild b c g w) c.slot (.commit c.record) := by
  obtain ⟨-, g', n, d, hr', hk, hg⟩ := h.context b c hc
  obtain rfl := Option.some.inj (hr.symm.trans hr')
  obtain ⟨state, latch, proposal⟩ := state_of_build h.slots hc
  have size : ({ g with blocks := g.blocks.take (blocksFor g.pointCount), state := .pending w } : GenRecord).sizeLaw := by
    have := h.sizes _ g hr
    simp only [GenRecord.sizeLaw, hg] at this
    obtain ⟨h2, hm, hle, hb⟩ := this
    have : g.pointCount ≤ 1024 := by omega
    refine ⟨hn, this, ?_⟩
    rw [List.length_take, hb]
    simp only [blocksFor, Config.pointsPerBlock]
    omega
  have closed := (h.unlinkBuild hc).rework (r := c.record)
    (g' := { g with blocks := g.blocks.take (blocksFor g.pointCount), state := .pending w }) hr rfl rfl rfl size
    (fun hm => absurd hm (not_mayBeNamed_of_building hg))
  unfold State.finishBuild
  dsimp only
  rw [returnBlocks_frame]
  refine ⟨closed.of_blocks s.store _ _, ?_, ?_⟩
  · constructor
    all_goals rw [State.slot_setSlot_self]
    · exact state
    · exact latch
    · exact proposal
  · rintro r ⟨⟩
    exact ⟨_, w, State.record_setRecord_self .., hk, rfl⟩

/-- A build is opened (R64). -/
theorem buildOpened {p : Port} {n : Session} {a : OpenArgs} {b : Handle} {r : RecordIndex} (h : s.poolLaw none)
    (hk : Ready s a.slot) (hf : s.context b = none) (hr : s.record r = none)
    (hb : blocksFor a.declared ≤ s.freeList.length) (h2 : 2 ≤ a.declared) (hm : a.declared ≤ 1024) :
    (s.buildOpened p n a b r).poolLaw none := by
  obtain ⟨⟨d, hs⟩, hlt, hnb, hnp⟩ := hk
  have size : (s.newBuild a).sizeLaw := ⟨h2, hm, Nat.zero_le _, by simp [State.newBuild, hb]⟩
  have introduced := h.introduce (g := s.newBuild a) hr rfl size (newNumber_ne_zero (h.numbered a.slot))
    (fun r' g' hg' hs' => newNumber_fresh (h.numbered a.slot) hr hg' hs')
  have opened := introduced.linkBuild (b := b) (c := { slot := a.slot, record := r, owner := p, session := n })
    (n := nextNumber (s.newNumber a.slot)) (State.record_setRecord_self ..) rfl rfl (nextNumber_ne_zero _) hf hs hlt hnb hnp
  exact opened.of_blocks s.store (s.freeList.drop (blocksFor a.declared)) s.storeLowArmed

/-- A BUILDING record's points, count within what was declared, or idle deadline change (R67, R74). -/
theorem rebuild {r : RecordIndex} {g : GenRecord} {n : Nat} {d : Time} (d' : Time) {m : Nat} (h : s.poolLaw none)
    (hr : s.record r = some g) (hg : g.state = .building n d) (hm : m ≤ n) :
    (s.setRecord r (some { g with state := .building n d', pointCount := m })).poolLaw none := by
  have size : ({ g with state := .building n d', pointCount := m } : GenRecord).sizeLaw := by
    have := h.sizes _ g hr
    simp only [GenRecord.sizeLaw, hg] at this
    obtain ⟨h2, hmax, -, hb⟩ := this
    exact ⟨h2, hmax, hm, hb⟩
  have unnamed := not_mayBeNamed_of_building hg
  refine ⟨{ h.slots with }, ?_, ?_, ?_, ?_, ?_, ?_, ?_, ?_, ?_, h.numbered, ?_, ?_⟩
  all_goals simp only [State.record_setRecord_ite, State.slot_setRecord, State.context_setRecord,
    State.proposal_setRecord, State.lease_setRecord, State.lane_setRecord]
  · have := h.sizes; grind
  · have := h.live; grind
  · have := h.context; grind
  · have := h.commit; grind
  · intro r' y hy _
    split at hy
    · next he =>
      rw [← Option.some.inj hy, he]
      exact ⟨fun _ _ _ => (h.homed r g hr nofun).1 n d hg, nofun, nofun, nofun⟩
    · exact h.homed r' y hy nofun
  · have := h.retiring; grind
  · have := h.leased; grind
  · have := h.captured; grind
  · intro r' y hy
    split at hy
    · next he => exact (Option.some.inj hy) ▸ he ▸ h.counted r g hr
    · exact h.counted r' y hy
  · have := h.numbers; grind
  · have := h.distinct; grind

end State.poolLaw
end Sys2Proof.Machine
end

section
/-! The resolution of a proposal (R90). The effects of the outcome are applied before the entry and the slot's reference
are cleared; the two commute, so that the law can clear the reference first. -/

namespace Sys2Proof.Machine

/-! ### Clearing a proposal -/

/-- The record of the slot `k`, without its proposal reference where `k` is the slot `k₀`. -/
def unreferred (k₀ k : SlotIndex) (x : SlotRecord) : SlotRecord := if k = k₀ then { x with proposal := none } else x

@[simp] theorem unreferred_state (k₀ k : SlotIndex) (x : SlotRecord) : (unreferred k₀ k x).state = x.state := by
  unfold unreferred; split <;> rfl

@[simp] theorem unreferred_fixedLatch (k₀ k : SlotIndex) (x : SlotRecord) :
    (unreferred k₀ k x).fixedLatch = x.fixedLatch := by
  unfold unreferred; split <;> rfl

theorem unreferred_vacant (k₀ k : SlotIndex) : unreferred k₀ k SlotRecord.vacant = SlotRecord.vacant := by
  unfold unreferred; split <;> rfl

/-- A change of the state and of the latch goes past the reference. -/
theorem unreferred_with (k₀ k : SlotIndex) (x : SlotRecord) (y : SlotState) (latch : Bool) :
    unreferred k₀ k ⟨y, x.nextNumber, x.build, x.proposal, latch⟩ = ⟨y, (unreferred k₀ k x).nextNumber,
      (unreferred k₀ k x).build, (unreferred k₀ k x).proposal, latch⟩ := by
  unfold unreferred; split <;> rfl

/-- A proposal entry and the reference of its slot are cleared (R90 step 3). -/
def State.clearProposal (s : State) (e : ProposalIndex) (k₀ : SlotIndex) : State :=
  (s.setSlot k₀ { s.slot k₀ with proposal := none }).setProposal e none

section
variable (s : State) (e : ProposalIndex) (k₀ : SlotIndex)

theorem State.record_clearProposal (r : RecordIndex) : (s.clearProposal e k₀).record r = s.record r := rfl

theorem State.inUse_clearProposal : (s.clearProposal e k₀).inUse = s.inUse := rfl

theorem State.slot_clearProposal (k : SlotIndex) : (s.clearProposal e k₀).slot k = unreferred k₀ k (s.slot k) := by
  rw [State.clearProposal, State.slot_setProposal, State.slot_setSlot_ite, unreferred]
  split
  · next h => rw [h]
  · rfl

theorem State.clearProposal_setSlot (k : SlotIndex) (x : SlotRecord) :
    (s.setSlot k x).clearProposal e k₀ = (s.clearProposal e k₀).setSlot k (unreferred k₀ k x) := by
  unfold State.clearProposal unreferred
  by_cases h : k = k₀
  · subst h
    simp [State.setSlot, State.setProposal, State.slot]
  · rw [State.slot_setSlot_ne _ _ (Ne.symm h), if_neg h]
    simp only [State.setSlot, State.setProposal]
    rw [Vector.set_comm _ _ (fun hv => h (Fin.ext hv))]

theorem State.clearProposal_setRecord (r : RecordIndex) (x : Option GenRecord) :
    (s.setRecord r x).clearProposal e k₀ = (s.clearProposal e k₀).setRecord r x := rfl

theorem State.clearProposal_returnBlocks (bs : List BlockIndex) :
    (s.returnBlocks bs).clearProposal e k₀ = (s.clearProposal e k₀).returnBlocks bs := by
  unfold State.returnBlocks
  split <;> rfl

theorem State.clearProposal_setGenState (r : RecordIndex) (x : GenState) :
    (s.setGenState r x).clearProposal e k₀ = (s.clearProposal e k₀).setGenState r x := by
  unfold State.setGenState
  rw [record_clearProposal]
  split <;> rfl

theorem State.clearProposal_freeRecord (r : RecordIndex) :
    (s.freeRecord r).clearProposal e k₀ = (s.clearProposal e k₀).freeRecord r := by
  unfold State.freeRecord
  rw [record_clearProposal]
  split
  · rfl
  · rename_i g _
    dsimp only
    rw [← clearProposal_returnBlocks, ← clearProposal_setRecord]
    generalize (s.returnBlocks g.blocks).setRecord r none = t
    rw [slot_clearProposal, unreferred_state, show (t.clearProposal e k₀).slotInUse g.slot = t.slotInUse g.slot from rfl]
    split
    · rw [clearProposal_setSlot, unreferred_vacant]
    · rfl

theorem State.clearProposal_supersede (r : RecordIndex) :
    (s.supersede r).clearProposal e k₀ = (s.clearProposal e k₀).supersede r := by
  unfold State.supersede
  rw [record_clearProposal]
  split
  · rfl
  · dsimp only
    rw [← clearProposal_setGenState]
    split
    · rw [clearProposal_freeRecord]
    · rfl

theorem State.clearProposal_adopt (k : SlotIndex) (c : Change) :
    (s.adopt k c).clearProposal e k₀ = (s.clearProposal e k₀).adopt k c := by
  cases c with
  | commit r =>
    simp only [State.adopt, State.adoptCommit, record_clearProposal, slot_clearProposal, unreferred_state,
      unreferred_fixedLatch, inUse_clearProposal]
    split
    · rfl
    · split
      · rw [clearProposal_setSlot, clearProposal_setGenState, unreferred_with]
        rfl
      · rw [clearProposal_supersede, clearProposal_setSlot, clearProposal_setGenState, unreferred_with]
        rfl
      · rfl
      · rfl
  | retire =>
    simp only [State.adopt, State.adoptRetire, slot_clearProposal, unreferred_state]
    split
    · rw [clearProposal_setSlot, unreferred_vacant]
    · rw [clearProposal_supersede, clearProposal_setSlot]
      simp only [unreferred_with, unreferred_fixedLatch]
    · rfl
    · rfl

end

/-! ### Resolutions -/

/-- What a resolution does to the tables. -/
theorem resolve_sameTables {s : State} {e : ProposalIndex} {q : Proposal} (hq : s.proposal e = some q)
    (o : ProposalOutcome) :
    SameTables ((s.applyOutcome q.slot q.change o).clearProposal e q.slot) (s.resolve e o) := by
  unfold State.resolve
  rw [hq]
  have told (f x) := SameTables.of_deliverWhere ((s.applyOutcome q.slot q.change o).clearProposal e q.slot) f x
  cases o with
  | adopted => exact (told ..).trans (.of_announceChange ..)
  | rejected | lapsed | withdrawn | pending => exact told ..

namespace State.poolLaw

variable {s : State}

/-- The slot of a proposal is ready for the change once the reference is cleared. -/
theorem ready_clearProposal (h : s.slotLaw) {e : ProposalIndex} {q : Proposal} (hq : s.proposal e = some q) :
    Ready (s.clearProposal e q.slot) q.slot := by
  have hp := h.proposal_of hq
  have linked : (s.slot q.slot).build ≠ none ∨ (s.slot q.slot).proposal ≠ none := .inr (by simp [hp])
  have cleared : (s.clearProposal e q.slot).slot q.slot = { s.slot q.slot with proposal := none } := by
    rw [State.slot_clearProposal, unreferred, if_pos rfl]
  constructor
  all_goals rw [cleared]
  · exact h.state_of_linked linked
  · exact h.latch_of_linked linked
  · exact (h.notBoth q.slot).resolve_right (by simp [hp])

/-- An outcome applied, with the proposal cleared (R91, R92, R93). -/
theorem applyOutcome {e : ProposalIndex} {q : Proposal} {o : ProposalOutcome} (h : s.poolLaw none)
    (hq : s.proposal e = some q) (ho : o ≠ .pending) :
    ((s.applyOutcome q.slot q.change o).clearProposal e q.slot).poolLaw none := by
  have cleared : (s.clearProposal e q.slot).poolLaw q.change.committed := h.unlinkProposal hq
  have ready := ready_clearProposal h.slots hq
  have offered : Offered (s.clearProposal e q.slot) q.slot q.change := fun r hr => (h.commit e q r hq hr).2
  have dropped : ((s.applyOutcome q.slot q.change .rejected).clearProposal e q.slot).poolLaw none := by
    cases hc : q.change with
    | commit r =>
      obtain ⟨-, g, w, hr, hk, hg⟩ := h.commit e q r hq hc
      rw [State.applyOutcome, State.clearProposal_freeRecord]
      rw [hc] at cleared
      refine cleared.freeRecord hr (h.refCount_eq_zero hr (not_mayBeNamed_of_pending hg)) (.inr fun d hd => ?_)
      obtain ⟨d', hs⟩ := ready.state
      rw [hk] at hd
      simp [hd] at hs
    | retire => rwa [hc] at cleared
  cases o with
  | adopted =>
    rw [State.applyOutcome, State.clearProposal_adopt]
    exact cleared.adopt ready offered
  | rejected | lapsed | withdrawn => exact dropped
  | pending => exact absurd rfl ho

/-- A proposal resolves (R90). -/
theorem resolve {e : ProposalIndex} {o : ProposalOutcome} (hrun : s.isRunning = true) (h : s.poolLaw none)
    (ho : o ≠ .pending) : (s.resolve e o).poolLaw none := by
  cases hq : s.proposal e with
  | none => rwa [State.resolve, hq]
  | some q =>
    refine (h.applyOutcome hq ho).of_sameTables ?_ (resolve_sameTables hq o)
    rw [← (resolve_sameTables hq o).isRunning, resolve_frame]
    exact hrun

end State.poolLaw
end Sys2Proof.Machine
end

section
/-! The law of the generation pool through every move. -/

namespace Sys2Proof.Machine

/-! ### The phase -/

theorem finishBuild_isRunning (s : State) (h : Handle) (b : BuildContext) (g : GenRecord) (c : Word) :
    (s.finishBuild h b g c).isRunning = s.isRunning := by
  unfold State.finishBuild
  dsimp only
  rw [returnBlocks_frame]
  rfl

theorem openChange_isRunning (s : State) (k : SlotIndex) (c : Change) (p : Port) (n : Session) :
    (s.openChange k c p n).1.isRunning = s.isRunning := by
  rw [openChange_frame]
  rfl

theorem raiseReference_isRunning (s : State) (r : RecordIndex) : (s.raiseReference r).isRunning = s.isRunning := by
  unfold State.raiseReference
  split <;> rfl

theorem Move.isRunning {s t : State} (h : Move s t) : t.isRunning = s.isRunning := by
  cases h with
  | quiet h => exact h.isRunning
  | define d h => rfl
  | endLease e => rw [removeLease_frame]; rfl
  | endBuild b => rw [discardBuild_frame]; rfl
  | restart r =>
    unfold State.restartIdle
    split
    · rfl
    · split <;> rfl
  | append hr hg hn hp hx hw => rfl
  | close c n hb hr hn he => rw [openChange_isRunning, finishBuild_isRunning]
  | retire => exact openChange_isRunning ..
  | resolve e ho => rw [resolve_frame]; rfl
  | hold hs he => exact raiseReference_isRunning ..
  | capture w hi hc => exact raiseReference_isRunning ..
  | release hi => rw [dropReference_frame]; rfl

/-! ### The law -/

theorem maskOf_finishBuild (s : State) (h : Handle) (b : BuildContext) (g : GenRecord) (c : Word)
    (f : TableDef → PortSet) : (s.finishBuild h b g c).maskOf b.slot f = s.maskOf b.slot f := by
  unfold State.finishBuild
  dsimp only
  rw [returnBlocks_frame]
  simp only [State.maskOf, State.slot_setSlot_self]
  rfl

theorem freeProposalIndex_finishBuild (s : State) (h : Handle) (b : BuildContext) (g : GenRecord) (c : Word) :
    (s.finishBuild h b g c).freeProposalIndex = s.freeProposalIndex := by
  unfold State.finishBuild
  dsimp only
  rw [returnBlocks_frame]
  rfl

/-- The end of a lookup and the release of its reference commute. -/
theorem dropReference_setLane (s : State) (r : RecordIndex) (i : LaneIndex) (x : Option LaneWork) :
    (s.dropReference r).setLane i x = (s.setLane i x).dropReference r := by
  have freed (t : State) : (t.freeRecord r).setLane i x = (t.setLane i x).freeRecord r := by
    have returned (bs : List BlockIndex) : (t.setLane i x).returnBlocks bs = (t.returnBlocks bs).setLane i x := by
      unfold State.returnBlocks
      split <;> rfl
    unfold State.freeRecord
    rw [State.record_setLane]
    split
    · rfl
    · rename_i g _
      dsimp only
      rw [returned]
      generalize t.returnBlocks g.blocks = u
      exact apply_ite (fun v : State => v.setLane i x) _ _ _
  unfold State.dropReference
  rw [State.record_setLane]
  split
  · rfl
  · dsimp only
    split
    · exact freed _
    · rfl

namespace State.poolLaw

variable {s : State}

/-- A record that a slot or a lease names may be captured. -/
theorem mayBeNamed_of_named {r : RecordIndex} (h : s.poolLaw none)
    (hr : (∃ k, (s.slot k).state.current = some r) ∨ ∃ e l, s.lease e = some l ∧ l.record = r) :
    ∃ g, s.record r = some g ∧ g.mayBeNamed := by
  obtain ⟨k, hk⟩ | ⟨e, l, hl, rfl⟩ := hr
  · obtain ⟨d, hd⟩ := slotState_current_eq_some.1 hk
    obtain ⟨-, g, c, hg, -, hc⟩ := h.live k d r hd
    exact ⟨g, hg, mayBeNamed_iff.2 (.inl ⟨c, hc⟩)⟩
  · obtain ⟨g, hg, -, hm⟩ := h.leased e l hl
    exact ⟨g, hg, hm⟩

theorem define {k : SlotIndex} (d : TableDef) (h : s.poolLaw none) (hk : (s.slot k).state = .vacant) :
    (s.setSlot k (freshSlot (.defined d))).poolLaw none := by
  have empty := h.slots.vacant k hk
  have hnb : (s.slot k).build = none := by rw [empty]; rfl
  have hnp : (s.slot k).proposal = none := by rw [empty]; rfl
  exact h.resetSlot (.inr ⟨d, rfl⟩) (fun r g hr hg => absurd hg (h.no_record (.inl hk) hnb hnp hr)) hnb hnp

theorem restartIdle (h : s.poolLaw none) (r : RecordIndex) : (s.restartIdle r).poolLaw none := by
  unfold State.restartIdle
  split
  · exact h
  · rename_i g hr
    split
    · rename_i n d hg
      have size := h.sizes r g hr
      simp only [GenRecord.sizeLaw, hg] at size
      exact h.rebuild _ hr hg size.2.2.1
    all_goals exact h

theorem append {r : RecordIndex} {g : GenRecord} {n m : Nat} {d : Time} (h : s.poolLaw none) (hr : s.record r = some g)
    (hg : g.state = .building n d) (hm : m ≤ n) (store : Memory) :
    ({ s with store := store }.setRecord r (some { g with pointCount := m })).poolLaw none := by
  have := h.rebuild d hr hg hm
  rw [← hg] at this
  exact this.of_blocks store s.freeList s.storeLowArmed

/-- An accepted CLOSE_BUILD (R70, R71). -/
theorem close {b : Handle} {c : BuildContext} {g : GenRecord} (w : Word) {p : Port} (n : Session) (h : s.poolLaw none)
    (hrun : s.isRunning = true) (hc : s.context b = some c) (hr : s.record c.record = some g) (hn : 2 ≤ g.pointCount)
    (he : needsEntry (s.maskOf c.slot (·.approvers)) p = true → s.freeProposalIndex ≠ none) :
    ((s.finishBuild b c g w).openChange c.slot (.commit c.record) p n).1.poolLaw none := by
  obtain ⟨closed, ready, offered⟩ := h.finishBuild w hc hr hn
  refine closed.openChange n ((finishBuild_isRunning ..).trans hrun) ready offered ?_
  rwa [maskOf_finishBuild, freeProposalIndex_finishBuild]

end State.poolLaw

/-- Every move keeps the law of the generation pool. -/
theorem Move.poolLaw {s t : State} (h : Move s t) (hrun : s.isRunning = true) (law : s.poolLaw none) :
    t.poolLaw none := by
  cases h with
  | quiet h => exact law.of_sameTables hrun h
  | define d h => exact law.define d h
  | endLease e => exact law.removeLease e
  | endBuild b => exact law.discardBuild b
  | restart r => exact law.restartIdle r
  | append hr hg hn hp hx hw => exact law.append hr hg hn _
  | close c n hb hr hn he => exact law.close c n hrun hb hr hn he
  | @retire k d p n hs hl hb hp he =>
    exact State.poolLaw.openChange (c := .retire) n hrun law ⟨⟨d, hs⟩, hl, hb, hp⟩ nofun he
  | resolve e ho => exact law.resolve hrun ho
  | hold hs he => exact law.hold hs he
  | capture w hi hc =>
    obtain ⟨g, hg, hm⟩ := law.mayBeNamed_of_named hc
    exact law.capture w hg hm hi
  | release hi =>
    rw [dropReference_setLane]
    exact law.release hi

end Sys2Proof.Machine
end

section
/-! The law of the generation pool through every step. -/

namespace Sys2Proof.Machine

/-! ### Through what the claims of a step do -/

theorem Moves.isRunning {s t : State} (h : Moves s t) : t.isRunning = s.isRunning := by
  induction h with
  | refl => rfl
  | tail _ hm ih => exact hm.isRunning.trans ih

theorem Moves.poolLaw {s t : State} (h : Moves s t) (hrun : s.isRunning = true) (law : s.poolLaw none) :
    t.poolLaw none := by
  induction h with
  | refl => exact law
  | tail hs hm ih => exact hm.poolLaw ((Moves.isRunning hs).trans hrun) ih

theorem OpensBuild.poolLaw {s t : State} (h : OpensBuild s t) (hrun : s.isRunning = true) (law : s.poolLaw none) :
    t.isRunning = true ∧ t.poolLaw none := by
  obtain ⟨u, hb, hs, hl, hnb, hnp, hh, hr, hk, h2, hm, ha⟩ := h
  have opening := (openBuild_sameTables u _ _ _ _ _).trans ha
  have running : u.isRunning = true := hb.isRunning.trans hrun
  exact ⟨opening.isRunning.trans running,
    ((law.of_sameTables hrun hb).buildOpened ⟨⟨_, hs⟩, hl, hnb, hnp⟩ hh hr hk h2 hm).of_sameTables running opening⟩

/-- A part with something to carry out is running: at rest nothing is in execution. -/
theorem State.generationLaw.running {s : State} (h : s.generationLaw) (he : s.engaged) : s.isRunning = true := by
  obtain he | ⟨p, hp⟩ := he
  · exact he
  · by_contra hr
    exact hp ((h.atRest (by simpa using hr)).1 p)

theorem Carries.generationLaw {s t : State} (h : Carries s t) (he : s.engaged) (law : s.generationLaw) :
    t.generationLaw := by
  have running := law.running he
  have pool := (generationLaw_iff running).1 law
  obtain h | h := h
  · exact (generationLaw_iff (h.isRunning.trans running)).2 (h.poolLaw running pool)
  · obtain ⟨running', pool'⟩ := h.poolLaw running pool
    exact (generationLaw_iff running').2 pool'

/-! ### Through resets -/

/-- What the law of the generation pool does not speak of. -/
theorem State.generationLaw.of_rest {s : State} (h : s.generationLaw) (shadow : Option Shadow) (store : Memory)
    (time : Time) (low : Bool) :
    ({ s with shadow := shadow, store := store, time := time, rstnLow := low } : State).generationLaw :=
  { h with slots := { h.slots with } }

/-- The assertion of a reset empties the lanes and the ports (R177). -/
theorem State.generationLaw.enterReset {s : State} (h : s.generationLaw) {x : Phase} (hx : x ≠ .running) :
    (s.enterReset x).generationLaw := by
  have idle (p : Port) : ((s.enterReset x).port p).inExec = none := by
    rw [enterReset_port]
    rfl
  have stopped : (s.enterReset x).isRunning = false := by
    rw [enterReset_frame]
    cases x <;> simp_all [State.isRunning]
  rw [enterReset_frame] at idle stopped ⊢
  have lanes (i : LaneIndex) : (Vector.replicate 2 (none : Option LaneWork))[i] = none := by simp
  exact { h with
    slots := { h.slots with }
    captured := fun i w c hi _ => by
      have hi : (Vector.replicate 2 (none : Option LaneWork))[i] = some w := hi
      rw [lanes] at hi
      cases hi
    counted := fun hr => absurd (stopped.symm.trans hr) (by decide)
    atRest := fun _ => ⟨idle, lanes⟩ }

/-- A start-up begins (R177). -/
theorem State.generationLaw.beginStartUp {s : State} (h : s.generationLaw) {k : ResetKind} (hk : s.phase = .inReset k) :
    (({ s with rstnLow := false } : State).beginStartUp k).generationLaw :=
  { h with
    slots := { h.slots with }
    counted := nofun
    atRest := fun _ => h.atRest (by rw [State.isRunning, hk]; rfl) }

/-! ### Through start-ups -/

/-- No lease and no lane names a record where there is none. -/
theorem names_eq_zero {s : State} (hl : ∀ e, s.lease e = none) (hi : ∀ i, s.lane i = none) (r : RecordIndex) :
    s.leasesNaming r + s.capturesOf r = 0 := by
  simp [State.leasesNaming, State.leasesWhere, State.capturesOf, hl, hi]

/-- The law of the generation pool where all tables are empty. -/
theorem poolLaw_of_empty {s : State} (hr : ∀ r, s.record r = none) (hk : ∀ k, s.slot k = SlotRecord.vacant)
    (hc : ∀ b, s.context b = none) (hq : ∀ e, s.proposal e = none) (hl : ∀ e, s.lease e = none)
    (hi : ∀ i, s.lane i = none) : s.poolLaw none := by
  refine ⟨⟨?_, ?_, ?_, ?_, ?_, ?_⟩, ?_, ?_, ?_, ?_, ?_, ?_, ?_, ?_, ?_, ?_, ?_, ?_⟩ <;>
    simp [hr, hk, hc, hq, hl, hi, SlotRecord.vacant]

theorem coldStart_generationLaw (s : State) : s.coldStart.generationLaw := by
  have running : s.coldStart.isRunning = true := by
    unfold State.coldStart State.startCommon
    generalize s.loadOptions.eachPort _ = t
    rfl
  refine (generationLaw_iff running).2 (poolLaw_of_empty (fun r => ?_) (fun k => ?_) (fun b => ?_) (fun e => ?_)
    (fun e => ?_) (fun i => ?_))
  all_goals
    unfold State.coldStart State.startCommon
    generalize s.loadOptions.eachPort _ = t
  · simp [State.record]
  · simp [State.slot]
  · simp [State.context]
  · simp [State.proposal]
  · simp [State.lease]
  · simp [State.lane]

/-! A warm start-up keeps the CURRENT records without references, and no other. -/

section Warm

variable (s : State)

theorem warmStart_record (r : RecordIndex) : s.warmStart.record r = (s.record r).bind GenRecord.warm := by
  simp [State.record, warmStart_records]

theorem warmStart_slot (k : SlotIndex) : s.warmStart.slot k = (s.slot k).warm := by
  unfold State.warmStart
  generalize s.startCommon = t
  simp [State.slot]

theorem warmStart_context (b : Handle) : s.warmStart.context b = none := by
  unfold State.warmStart State.startCommon
  generalize s.eachPort _ = t
  simp [State.context]

theorem warmStart_proposal (e : ProposalIndex) : s.warmStart.proposal e = none := by
  unfold State.warmStart State.startCommon
  generalize s.eachPort _ = t
  simp [State.proposal]

theorem warmStart_lease (e : LeaseIndex) : s.warmStart.lease e = none := by
  unfold State.warmStart State.startCommon
  generalize s.eachPort _ = t
  simp [State.lease]

theorem warmStart_lane (i : LaneIndex) : s.warmStart.lane i = none := by
  unfold State.warmStart State.startCommon
  generalize s.eachPort _ = t
  simp [State.lane]

theorem warmStart_isRunning : s.warmStart.isRunning = true := by
  unfold State.warmStart State.startCommon
  generalize s.eachPort _ = t
  rfl

end Warm

theorem genRecord_warm_eq_some {g g' : GenRecord} :
    g.warm = some g' ↔ (∃ c, g.state = .current c) ∧ g' = { g with refCount := 0 } := by
  rw [GenRecord.warm, ← isCurrent_iff]
  split
  · next hc => simp only [hc, Option.some.injEq, true_and, eq_comm]
  · next hc => simp [hc]

theorem warmStart_record_eq_some {s : State} {r : RecordIndex} {g' : GenRecord} : s.warmStart.record r = some g' ↔
    ∃ g c, s.record r = some g ∧ g.state = .current c ∧ g' = { g with refCount := 0 } := by
  simp only [warmStart_record, Option.bind_eq_some_iff, genRecord_warm_eq_some]
  grind

/-- A slot after a warm start-up: VACANT, or as it was without references. -/
theorem slotRecord_warm_cases (x : SlotRecord) :
    ((x.state = .vacant ∨ ∃ d, x.state = .retiring d) ∧ x.warm = SlotRecord.vacant)
      ∨ ((∃ d, x.state = .defined d ∨ ∃ r, x.state = .live d r) ∧ x.warm = { x with build := none, proposal := none }) := by
  unfold SlotRecord.warm
  split <;> simp_all

theorem warmStart_poolLaw {s : State} (h : s.generationLaw) : s.warmStart.poolLaw none := by
  have slot (k : SlotIndex) := slotRecord_warm_cases (s.slot k)
  have names := names_eq_zero (warmStart_lease s) (warmStart_lane s)
  refine ⟨⟨?_, ?_, ?_, ?_, ?_, ?_⟩, ?_, ?_, ?_, ?_, ?_, ?_, ?_, ?_, ?_, ?_, ?_, ?_⟩
  all_goals simp only [warmStart_record_eq_some, warmStart_slot, warmStart_context, warmStart_proposal, warmStart_lease,
    warmStart_lane, State.homed]
  · grind [SlotRecord.vacant]
  · grind [SlotRecord.vacant]
  · grind [SlotRecord.vacant]
  · grind [SlotRecord.vacant]
  · grind [SlotRecord.vacant]
  · have := h.slots.latched
    grind [SlotRecord.vacant]
  · rintro r g' ⟨g, c, hr, hg, rfl⟩
    exact h.sizes r g hr
  · intro k d r hk
    have live : (s.slot k).state = .live d r := by grind [SlotRecord.vacant]
    obtain ⟨g, hr, hs, hc⟩ := (h.current k r).1 (slotState_current_eq_some.2 ⟨d, live⟩)
    obtain ⟨c, hc⟩ := isCurrent_iff.1 hc
    exact ⟨nofun, _, c, ⟨g, c, hr, hc, rfl⟩, hs, hc⟩
  · nofun
  · nofun
  · rintro r g' ⟨g, c, hr, hg, rfl⟩ -
    obtain ⟨d, live⟩ := slotState_current_eq_some.1 ((h.current g.slot r).2 ⟨g, hr, rfl, isCurrent_iff.2 ⟨c, hg⟩⟩)
    have kept : (s.slot g.slot).warm.state = .live d r := by grind
    exact ⟨fun _ _ hs => (nomatch hg.symm.trans hs), fun _ hs => (nomatch hg.symm.trans hs), fun _ _ => ⟨d, kept⟩,
      fun _ hs => (nomatch hg.symm.trans hs)⟩
  · grind [SlotRecord.vacant]
  · nofun
  · nofun
  · rintro r g' ⟨g, c, hr, hg, rfl⟩
    exact (names r).symm
  · have := h.numbered
    grind [SlotRecord.vacant]
  · rintro r g' ⟨g, c, hr, hg, rfl⟩
    exact h.numbers r g hr
  · rintro r r' g' g₂' ⟨g, c, hr, hg, rfl⟩ ⟨g₂, c₂, hr₂, hg₂, rfl⟩ hs hn
    exact h.distinct r r' g g₂ hr hr₂ hs hn

/-! ### Through every step -/

theorem Advance.generationLaw {s t : State} (h : Advance s t) (law : s.generationLaw) : t.generationLaw := by
  cases h with
  | works he h => exact h.generationLaw he law
  | rests h hi => exact h.generationLaw (.inr hi) law
  | asserts =>
    have stopped : Phase.inReset s.assertedKind ≠ .running := nofun
    have entered := law.enterReset stopped
    generalize s.enterReset (.inReset s.assertedKind) = u at entered
    exact entered.of_rest u.shadow u.store u.time true
  | releases k h => exact law.beginStartUp h
  | powersOn x time h =>
    have stopped : x ≠ .running := by obtain rfl | rfl := h <;> nofun
    have entered := law.enterReset stopped
    generalize s.enterReset x = u at entered
    exact entered.of_rest none [] time u.rstnLow
  | coldStarts h => exact coldStart_generationLaw s
  | warmStarts h => exact (generationLaw_iff (warmStart_isRunning s)).2 (warmStart_poolLaw law)

theorem State.generationLaw.dequeue {s : State} (law : s.generationLaw) :
    ({ s with pending := s.pending.tail } : State).generationLaw :=
  (SameTables.of_pending s _).generationLaw (.inr id) law

/-- A step completes where the law of the generation pool holds: its one fault stands outside it. -/
theorem stepsSafely_of_generationLaw {s : State} (law : s.generationLaw) : s.stepsSafely := by
  have ends := step_ends s
  unfold State.stepsSafely
  cases h : step s with
  | next t => exact ⟨t, rfl⟩
  | fault e =>
    rw [h] at ends
    obtain ⟨he, u, hu, hn⟩ := ends
    exact absurd (hu.generationLaw he law.dequeue) hn
  | refused e =>
    rw [h] at ends
    exact ends.elim

end Sys2Proof.Machine
end

section
/-! The points of the Point Store through every step: its canonical form, the points of a generation that has left
BUILDING, and the rise of the x values of every record in use. -/

namespace Sys2Proof.Machine

/-! ### Block lists -/

/-- A record's blocks are distinct, and no other record has any of them (R4). -/
theorem State.blockLaw.nodup {s : State} (h : s.blockLaw) {r : RecordIndex} {g : GenRecord} (hr : s.record r = some g) :
    g.blocks.Nodup := by
  obtain ⟨others, hp, -⟩ := blocksInUse_replace none hr
  exact (hp.nodup (h.nodup_iff.2 (List.nodup_finRange 512)).of_append_right).of_append_left

theorem State.blockLaw.disjoint {s : State} (h : s.blockLaw) {r r' : RecordIndex} {g g' : GenRecord}
    (hr : s.record r = some g) (hr' : s.record r' = some g') (hne : r' ≠ r) : g.blocks.Disjoint g'.blocks := by
  obtain ⟨others, hp, hrest⟩ := blocksInUse_replace none hr
  obtain ⟨others', hp', -⟩ := blocksInUse_replace none ((State.record_setRecord_ne s none hne).trans hr')
  have nodup : (g.blocks ++ others).Nodup := hp.nodup (h.nodup_iff.2 (List.nodup_finRange 512)).of_append_right
  intro b hb hb'
  have used : b ∈ blocksInUse (s.setRecord r none).records.toList := hp'.mem_iff.2 (List.mem_append_left _ hb')
  exact (List.nodup_append.1 nodup).2.2 b hb b (by simpa [blocksInUse] using hrest.mem_iff.1 used) rfl

/-! ### A run appended -/

/-- A run written to one record's blocks leaves the points of another alone. -/
theorem points_writeRun_disjoint {m m' : Memory} {g g' : GenRecord} {i : Nat} {ps : List Point}
    (hw : writeRun g.blocks m i ps = some m') (hd : g.blocks.Disjoint g'.blocks) : g'.points m' = g'.points m :=
  readRun_congr fun _ _ _ _ ha => readPoint_writeRun_apart hw fun _ _ _ _ hx =>
    (locate_apart_of_disjoint hd hx ha).symm

/-- The run that R66 step 5 compares with is the last point appended so far, when there is one. -/
theorem previous_eq_drop {m : Memory} {blocks : List BlockIndex} {c : Nat} {qs previous : List Point}
    (hq : readRun m blocks 0 c = some qs) (hp : readRun m blocks (c - 1) (min c 1) = some previous) :
    previous = qs.drop (qs.length - 1) := by
  cases c with
  | zero =>
    obtain rfl : [] = qs := by simpa [readRun] using hq
    simpa [readRun, eq_comm] using hp
  | succ c =>
    obtain ⟨init, last, hinit, hlast, rfl⟩ := readRun_add hq
    have length : init.length = c := (readRun_eq_some.1 hinit).1
    have : (init ++ last).length = c + 1 := (readRun_eq_some.1 hq).1
    rw [Nat.zero_add] at hlast
    rw [Nat.min_eq_right (by omega), Nat.add_sub_cancel, hlast] at hp
    rw [this, Nat.add_sub_cancel, ← length, List.drop_left]
    exact (Option.some.inj hp).symm

/-- A run appended reads back behind the points that were there, which stay. -/
theorem readRun_append {m m' : Memory} {blocks : List BlockIndex} {c : Nat} {ps rs : List Point} (hm : Memory.wf m)
    (hn : blocks.Nodup) (hw : writeRun blocks m c ps = some m') (hr : readRun m' blocks 0 (c + ps.length) = some rs) :
    ∃ qs, readRun m blocks 0 c = some qs ∧ rs = qs ++ ps := by
  obtain ⟨qs, ps', hq, hp, rfl⟩ := readRun_add hr
  rw [Nat.zero_add, readRun_writeRun hm hn hw] at hp
  rw [readRun_congr (m := m) fun j a _ hj ha => readPoint_writeRun_apart hw fun k x hk _ hx =>
    (locate_apart hn ha hx (by omega))] at hq
  exact ⟨qs, hq, by rw [Option.some.inj hp]⟩

/-! ### The end of a build -/

theorem finishBuild_store (s : State) (h : Handle) (b : BuildContext) (g : GenRecord) (c : Word) :
    (s.finishBuild h b g c).store = s.store := by
  unfold State.finishBuild
  dsimp only
  rw [returnBlocks_frame]
  rfl

theorem finishBuild_record (s : State) (h : Handle) (b : BuildContext) (g : GenRecord) (c : Word) (r : RecordIndex) :
    (s.finishBuild h b g c).record r = if r = b.record then
      some { g with blocks := g.blocks.take (blocksFor g.pointCount), state := .pending c } else s.record r := by
  unfold State.finishBuild
  dsimp only
  rw [returnBlocks_frame]
  exact State.record_setRecord_ite ..

/-! ### The canonical form of the store -/

theorem Move.store_wf {s t : State} (h : Move s t) (hs : Memory.wf s.store) : Memory.wf t.store := by
  obtain h | ⟨r, g, -, -, -, ps, m, -, -, -, -, hw, rfl⟩ | ⟨b, h, g, c, -, -, ht⟩ := h.retains_or
  · rwa [h.store]
  · exact writeRun_wf hs hw
  · rwa [ht.store, finishBuild_store]

theorem OpensBuild.store {s t : State} (h : OpensBuild s t) : t.store = s.store := by
  obtain ⟨u, hb, -, -, -, -, -, -, -, -, -, ha⟩ := h
  exact ((openBuild_sameTables u _ _ _ _ _).trans ha).store.trans hb.store

theorem Carries.store_wf {s t : State} (h : Carries s t) (hs : Memory.wf s.store) : Memory.wf t.store := by
  obtain h | h := h
  · induction h with
    | refl => exact hs
    | tail _ hm ih => exact hm.store_wf ih
  · rwa [h.store]

theorem enterReset_store (s : State) (x : Phase) : (s.enterReset x).store = s.store := by rw [enterReset_frame]

theorem startCommon_store (s : State) : s.startCommon.store = s.store := by
  unfold State.startCommon
  rw [eachPort_frame]

theorem warmStart_store (s : State) : s.warmStart.store = s.store := by
  rw [← startCommon_store s]
  unfold State.warmStart
  generalize s.startCommon = t
  rfl

theorem coldStart_store (s : State) : s.coldStart.store = s.store := by
  have loaded : s.loadOptions.store = s.store := by rw [loadOptions_frame]
  rw [← loaded, ← startCommon_store s.loadOptions]
  unfold State.coldStart
  generalize s.loadOptions.startCommon = t
  rfl

/-- Every step keeps the canonical form of the store (log 10). -/
theorem Advance.storeLaw {s t : State} (h : Advance s t) (hs : s.storeLaw) : t.storeLaw := by
  unfold State.storeLaw at hs ⊢
  cases h with
  | works he h => exact h.store_wf hs
  | rests h hi => rwa [h.store]
  | asserts => exact (enterReset_store s (.inReset s.assertedKind)).symm ▸ hs
  | releases k h => exact hs
  | powersOn x time h => exact Memory.wf_nil
  | coldStarts h => rwa [coldStart_store]
  | warmStarts h => rwa [warmStart_store]

/-- Settles O17: a run is written point by point, and no other operation but power-on touches the store. -/
theorem writtenPointsReadBack : Obligations.WrittenPointsReadBack :=
  ⟨fun _ _ _ _ _ hm hn hw => ⟨readRun_writeRun hm hn hw, fun _ => readByte_writeRun_outside hw, writeRun_wf hm hw⟩,
    fun _ _ hs h => (step_advances h).storeLaw hs⟩

end Sys2Proof.Machine
end

section
/-! The points of the records in use through every step: they rise, and those of a generation that has left BUILDING stay
as they are. -/

namespace Sys2Proof.Machine

/-! ### The rise of x (R1) -/

/-- The x values of the points of every record in use rise strictly. -/
def State.rises (s : State) : Prop :=
  ∀ r g ps, s.record r = some g → g.points s.store = some ps → ps.Pairwise (fun a b => a.x.toInt < b.x.toInt)

theorem Retains.rises {s t : State} (h : Retains s t) (hs : s.rises) : t.rises := by
  intro r g' ps hr hp
  obtain ⟨g, hg, hb, hc, -⟩ := h.records r g' hr
  refine hs r g ps hg ?_
  rwa [GenRecord.points, h.store, hb, hc] at hp

/-- An APPEND_POINTS keeps the rise: the new points rise on from the last one (R66 step 5). -/
theorem State.rises.append {s : State} (hs : s.rises) (blocks : s.blockLaw) (store : s.storeLaw) {r : RecordIndex}
    {g : GenRecord} {previous ps : List Point} {m : Memory} (hr : s.record r = some g)
    (hp : readRun s.store g.blocks (g.pointCount - 1) (min g.pointCount 1) = some previous)
    (hx : rising (previous ++ ps) = true) (hw : writeRun g.blocks s.store g.pointCount ps = some m) :
    ({ s with store := m }.setRecord r (some { g with pointCount := g.pointCount + ps.length })).rises := by
  intro r' g' rs hr' hrs
  have hrs : g'.points m = some rs := hrs
  rw [State.record_setRecord_ite] at hr'
  split at hr'
  · obtain rfl := Option.some.inj hr'
    obtain ⟨qs, hq, rfl⟩ := readRun_append store (blocks.nodup hr) hw hrs
    exact pairwise_append_of_rising (hs r g qs hr hq) (previous_eq_drop hq hp ▸ hx)
  · next hne =>
    rw [points_writeRun_disjoint hw (blocks.disjoint hr hr' hne)] at hrs
    exact hs r' g' rs hr' hrs

theorem State.rises.finishBuild {s : State} (hs : s.rises) {b : BuildContext} {g : GenRecord} (h : Handle) (c : Word)
    (hr : s.record b.record = some g) : (s.finishBuild h b g c).rises := by
  intro r g' ps hr' hps
  rw [finishBuild_store] at hps
  rw [finishBuild_record] at hr'
  split at hr'
  · obtain rfl := Option.some.inj hr'
    exact hs b.record g ps hr (readRun_of_take hps)
  · exact hs r g' ps hr' hps

theorem Move.rises {s t : State} (h : Move s t) (blocks : s.blockLaw) (store : s.storeLaw) (hs : s.rises) :
    t.rises := by
  obtain h | ⟨r, g, -, -, previous, ps, m, hr, -, hp, hx, hw, rfl⟩ | ⟨b, h, g, c, -, hr, ht⟩ := h.retains_or
  · exact h.rises hs
  · exact hs.append blocks store hr hp hx hw
  · exact ht.rises (hs.finishBuild h c hr)

/-- A build that is opened has no points. -/
theorem State.rises.buildOpened {s : State} (hs : s.rises) (p : Port) (n : Session) (a : OpenArgs) (h : Handle)
    (r : RecordIndex) : (s.buildOpened p n a h r).rises := by
  intro r' g' ps hr' hps
  have hr' : (s.setRecord r (some (s.newBuild a))).record r' = some g' := hr'
  rw [State.record_setRecord_ite] at hr'
  split at hr'
  · obtain rfl := Option.some.inj hr'
    obtain rfl : [] = ps := Option.some.inj hps
    exact .nil
  · exact hs r' g' ps hr' hps

theorem Carries.rises {s t : State} (h : Carries s t) (blocks : s.blockLaw) (store : s.storeLaw) (hs : s.rises) :
    t.rises := by
  obtain h | ⟨u, hb, -, -, -, -, -, -, -, -, -, ha⟩ := h
  · induction h with
    | refl => exact hs
    | tail hm h ih =>
      have before : Carries s _ := .of_moves hm
      exact h.rises (before.allBlocks.trans blocks) (before.store_wf store) ih
  · exact (Retains.of_sameTables ((openBuild_sameTables u _ _ _ _ _).trans ha)).rises
      (((Retains.of_sameTables hb).rises hs).buildOpened _ _ _ _ _)

/-! ### Generations that have left BUILDING (R16) -/

/-- Every record in use after was in use before, and one that had left BUILDING keeps its table and its points. -/
def Preserves (s t : State) : Prop :=
  ∀ r g', t.record r = some g' → ∃ g, s.record r = some g
    ∧ ((∀ n, ¬g.isBuilding n) → (∀ n, ¬g'.isBuilding n) ∧ g.sameTable g' ∧ g'.points t.store = g.points s.store)

theorem Preserves.refl (s : State) : Preserves s s := fun _ g' hr => ⟨g', hr, fun hn => ⟨hn, .refl g', rfl⟩⟩

theorem Preserves.trans {s t u : State} (h : Preserves s t) (h' : Preserves t u) : Preserves s u := by
  intro r g'' hr
  obtain ⟨g', hr', left'⟩ := h' r g'' hr
  obtain ⟨g, hr, left⟩ := h r g' hr'
  refine ⟨g, hr, fun hn => ?_⟩
  obtain ⟨hn', same, points⟩ := left hn
  obtain ⟨hn'', same', points'⟩ := left' hn'
  exact ⟨hn'', same.trans same', points'.trans points⟩

/-- The points of the same table in the same store. -/
theorem GenRecord.sameTable.points {g g' : GenRecord} (h : g.sameTable g') (m : Memory) : g'.points m = g.points m := by
  obtain ⟨-, -, -, -, hc, hb, -⟩ := h
  rw [GenRecord.points, hc, hb, GenRecord.points]

theorem Retains.preserves {s t : State} (h : Retains s t) : Preserves s t := by
  intro r g' hr
  obtain ⟨g, hg, -, -, left⟩ := h.records r g' hr
  refine ⟨g, hg, fun hn => ?_⟩
  obtain ⟨same, hn'⟩ := left hn
  exact ⟨hn', same, h.store ▸ same.points s.store⟩

/-- A BUILDING record changes; the points of the others stay. -/
theorem preserves_of_building {s t : State} {r : RecordIndex} {g : GenRecord} {n : Nat} {d : Time}
    (hr : s.record r = some g) (hg : g.state = .building n d)
    (others : ∀ r', r' ≠ r → t.record r' = s.record r')
    (points : ∀ r' g', r' ≠ r → s.record r' = some g' → g'.points t.store = g'.points s.store) : Preserves s t := by
  intro r' g' hr'
  by_cases he : r' = r
  · exact ⟨g, he ▸ hr, fun hn => absurd ⟨d, hg⟩ (hn n)⟩
  · rw [others r' he] at hr'
    exact ⟨g', hr', fun hn => ⟨hn, .refl g', points r' g' he hr'⟩⟩

theorem Move.preserves {s t : State} (h : Move s t) (law : s.poolLaw none) (blocks : s.blockLaw) : Preserves s t := by
  obtain h | ⟨r, g, n, d, -, ps, m, hr, hg, -, -, hw, rfl⟩ | ⟨b, h, g, c, hb, hr, ht⟩ := h.retains_or
  · exact h.preserves
  · exact preserves_of_building hr hg (fun r' hne => State.record_setRecord_ne _ _ hne)
      fun r' g' hne hr' => points_writeRun_disjoint hw (blocks.disjoint hr hr' hne)
  · obtain ⟨-, g', n, d, hr', -, hg⟩ := law.context h b hb
    obtain rfl := Option.some.inj (hr.symm.trans hr')
    refine (preserves_of_building hr hg (fun r' hne => ?_) fun r' g' _ _ => ?_).trans ht.preserves
    · rw [finishBuild_record, if_neg hne]
    · rw [finishBuild_store]

theorem Moves.preserves {s t : State} (h : Moves s t) (hrun : s.isRunning = true) (law : s.poolLaw none)
    (blocks : s.blockLaw) : Preserves s t := by
  induction h with
  | refl => exact .refl s
  | tail hm h ih =>
    exact ih.trans (h.preserves (Moves.poolLaw hm hrun law) ((Carries.of_moves hm).allBlocks.trans blocks))

/-- What a step keeps of a record that is in use before it and after it, once it has left BUILDING. -/
def KeepsTable (s t : State) : Prop :=
  ∀ r g g', s.record r = some g → (∀ n, ¬g.isBuilding n) → t.record r = some g' →
    g.sameTable g' ∧ g'.points t.store = g.points s.store

theorem Preserves.keepsTable {s t : State} (h : Preserves s t) : KeepsTable s t := by
  intro r g g' hr hn hr'
  obtain ⟨g₀, hr₀, left⟩ := h r g' hr'
  obtain rfl := Option.some.inj (hr.symm.trans hr₀)
  exact (left hn).2

/-- What leaves the records and the store alone. -/
theorem KeepsTable.of_eq {s t : State} (hr : t.records = s.records) (hm : t.store = s.store) : KeepsTable s t := by
  intro r g g' hg _ hg'
  rw [State.record, hr] at hg'
  obtain rfl := Option.some.inj (hg.symm.trans hg')
  exact ⟨.refl g, by rw [hm]⟩

/-- A build that is opened takes a FREE record. -/
theorem OpensBuild.keepsTable {s t : State} (h : OpensBuild s t) : KeepsTable s t := by
  intro r g g' hg _ hg'
  have store := h.store
  obtain @⟨u, p, n, a, b, r₀, -, hb, -, -, -, -, -, hr, -, -, -, ha⟩ := h
  rw [((openBuild_sameTables u p n a b r₀).trans ha).record] at hg'
  have hg' : (u.setRecord r₀ (some (u.newBuild a))).record r = some g' := hg'
  rw [← hb.record] at hg
  rw [State.record_setRecord_ite] at hg'
  split at hg'
  · next he =>
    rw [he, hr] at hg
    cases hg
  · obtain rfl := Option.some.inj (hg.symm.trans hg')
    exact ⟨.refl g, by rw [store]⟩

/-! ### Through every step -/

theorem Carries.keepsTable {s t : State} (h : Carries s t) (he : s.engaged) (law : s.generationLaw)
    (blocks : s.blockLaw) : KeepsTable s t := by
  obtain h | h := h
  · have running := law.running he
    exact (h.preserves running ((generationLaw_iff running).1 law) blocks).keepsTable
  · exact h.keepsTable

theorem coldStart_record (s : State) (r : RecordIndex) : s.coldStart.record r = none := by
  simp [State.record, coldStart_records]

theorem Advance.keepsTable {s t : State} (h : Advance s t) (law : s.generationLaw) (blocks : s.blockLaw)
    (loaded : t.shadow ≠ none) : KeepsTable s t := by
  cases h with
  | works he h => exact h.keepsTable he law blocks
  | rests h hi => exact .of_eq h.records h.store
  | asserts =>
    exact .of_eq (enterReset_records s (.inReset s.assertedKind)) (enterReset_store s (.inReset s.assertedKind))
  | releases k h => exact .of_eq rfl rfl
  | powersOn x time h => exact absurd rfl loaded
  | coldStarts h => exact fun r g g' _ _ hr => nomatch (coldStart_record s r).symm.trans hr
  | warmStarts h =>
    intro r g g' hr _ hr'
    obtain ⟨g₀, c, hr₀, -, rfl⟩ := warmStart_record_eq_some.1 hr'
    obtain rfl := Option.some.inj (hr.symm.trans hr₀)
    rw [warmStart_store]
    exact ⟨⟨rfl, rfl, rfl, rfl, rfl, rfl, rfl⟩, rfl⟩

/-- The law of rising x, where the records are in use, through every step. -/
theorem Advance.risingLaw {s t : State} (h : Advance s t) (law : s.generationLaw) (blocks : s.blockLaw)
    (store : s.storeLaw) (hs : s.risingLaw) : t.risingLaw := by
  have same {u : State} (hr : u.records = s.records) (hm : u.store = s.store) (hsr : s.rises) : u.rises := by
    simpa only [State.rises, State.record, hr, hm] using hsr
  cases h with
  | works he h =>
    have running : s.phase = .running := by simpa [State.isRunning] using law.running he
    have hsr : s.rises := hs (by simp [running]) (by simp [running])
    exact fun _ _ => h.rises blocks store hsr
  | rests h hi =>
    intro hr hk
    rw [h.phase] at hr hk
    exact same h.records h.store (hs hr hk)
  | asserts =>
    intro hr _
    have warm : s.assertedKind ≠ .cold := fun hc => hr (by rw [hc, enterReset_frame])
    refine same (enterReset_records s (.inReset s.assertedKind)) (enterReset_store s (.inReset s.assertedKind))
      (hs (fun hp => warm ?_) (fun hp => warm ?_)) <;> rw [State.assertedKind, hp]
  | releases k h =>
    intro _ hk
    have warm : k ≠ .cold := fun hc => hk (congrArg Phase.startUp hc)
    exact same rfl rfl (hs (by simpa [h] using warm) (by simp [h]))
  | powersOn x time h =>
    intro hr hk
    have phase : (s.enterReset x).phase = x := by rw [enterReset_frame]
    obtain rfl | rfl := h
    · exact absurd phase hr
    · exact absurd phase hk
  | coldStarts h => exact fun _ _ r g ps hr => nomatch (coldStart_record s r).symm.trans hr
  | warmStarts h =>
    intro _ _ r g' ps hr hps
    obtain ⟨g, c, hg, -, rfl⟩ := warmStart_record_eq_some.1 hr
    rw [warmStart_store] at hps
    exact hs (by simp [h]) (by simp [h]) r g ps hg hps

/-- Settles O57: every move keeps the law of the generation pool and, with the block lists apart, the rise of x. -/
theorem generationLawsKept : Obligations.GenerationLawsKept := by
  intro s law
  exact ⟨stepsSafely_of_generationLaw law, fun t h => ⟨(step_advances h).generationLaw law.dequeue,
    (step_advances h).risingLaw law.dequeue⟩⟩

/-- Settles O58: only an APPEND_POINTS changes points and only a CLOSE_BUILD a block list, and both are of a BUILDING
record. -/
theorem generationsNeverChange : Obligations.GenerationsNeverChange := by
  intro s t law blocks h loaded
  exact (step_advances h).keepsTable law.dequeue blocks loaded

end Sys2Proof.Machine
end

section
/-! The laws in the state after reset, where every table is empty. -/

namespace Sys2Proof.Machine

theorem reset_record (r : RecordIndex) : State.reset.record r = none := Vector.getElem_replicate _
theorem reset_slot (k : SlotIndex) : State.reset.slot k = SlotRecord.vacant := Vector.getElem_replicate _
theorem reset_context (b : Handle) : State.reset.context b = none := Vector.getElem_replicate _
theorem reset_proposal (e : ProposalIndex) : State.reset.proposal e = none := Vector.getElem_replicate _
theorem reset_lease (e : LeaseIndex) : State.reset.lease e = none := Vector.getElem_replicate _
theorem reset_lane (i : LaneIndex) : State.reset.lane i = none := Vector.getElem_replicate _
theorem reset_session (p : Port) : State.reset.session p = SessionEntry.initial := Vector.getElem_replicate _
theorem reset_port (p : Port) : State.reset.port p = PortState.initial := Vector.getElem_replicate _

theorem reset_blockLaw : State.reset.blockLaw := by
  have records : State.reset.records = Vector.replicate 128 none := by unfold State.reset; dsimp only
  have free : State.reset.freeList = List.finRange 512 := by unfold State.reset; dsimp only
  rw [State.blockLaw, records, free, Vector.toList_replicate, blocksInUse_replicate_none, List.append_nil]

theorem reset_portLaw : State.reset.portLaw := by
  intro p
  have detached : State.reset.isAttached p = false := by
    rw [State.isAttached, State.currentSession, reset_session]
    rfl
  rw [reset_port, detached]
  exact ⟨⟨by decide, by decide, rfl⟩, rfl⟩

theorem reset_sessionLaw : State.reset.sessionLaw := by
  refine ⟨fun p => ?_, fun e l hl => ?_, fun b c hc => ?_, fun e q p n hq => ?_, fun e q hq => ?_⟩
  · rw [reset_session]
    exact rfl
  · exact nomatch (reset_lease e).symm.trans hl
  · exact nomatch (reset_context b).symm.trans hc
  · exact nomatch (reset_proposal e).symm.trans hq
  · exact nomatch (reset_proposal e).symm.trans hq

theorem reset_leaseLaw : State.reset.leaseLaw := by
  refine fun _ => ⟨fun e _ l _ hl => (nomatch (reset_lease e).symm.trans hl), fun p => ?_⟩
  have none_held : State.reset.leasesWhere (fun l => l.port == p) = [] :=
    List.filter_eq_nil_iff.2 fun e _ => by simp [reset_lease]
  rw [none_held]
  exact Nat.zero_le _

theorem reset_poolLaw : State.reset.poolLaw none :=
  poolLaw_of_empty reset_record reset_slot reset_context reset_proposal reset_lease reset_lane

/-- Settles O60: every table is empty, and all blocks are free. -/
theorem lawsHoldAtReset : Obligations.LawsHoldAtReset :=
  ⟨reset_blockLaw, reset_store_wf, reset_portLaw, reset_sessionLaw, reset_leaseLaw, reset_poolLaw.slots,
    (generationLaw_iff rfl).2 reset_poolLaw, fun _ _ r _ _ hr => nomatch (reset_record r).symm.trans hr⟩

end Sys2Proof.Machine
end

section
/-! Fields out of range: the arguments that are none, and the refusal BAD_ARGUMENT of every command that has any. -/

namespace Sys2Proof.Machine

/-! ### Fields that are none -/

theorem slotOf_eq_none {b : Byte} (h : 63 < b.toNat) : slotOf b = none := dif_neg (by omega)

theorem handleOf_eq_none {b : Byte} (h : 3 < b.toNat) : handleOf b = none := dif_neg (by omega)

theorem declaredOf_eq_none {w : Word} (h : w.toNat < 2 ∨ 1024 < w.toNat) : declaredOf w = none :=
  if_neg (by rw [Config.maxPoints]; omega)

theorem interpolationOf_eq_none {b : Byte} (h : 1 < b.toNat) : interpolationOf b = none := by
  refine List.find?_eq_none.2 fun m _ hm => ?_
  rw [← beq_iff_eq.1 hm] at h
  cases m <;> exact absurd h (by decide)

theorem extrapolationOf_eq_none {b : Byte} (h : 2 < b.toNat) : extrapolationOf b = none := by
  refine List.find?_eq_none.2 fun m _ hm => ?_
  rw [← beq_iff_eq.1 hm] at h
  cases m <;> exact absurd h (by decide)

theorem selectorOf_eq_none {b : Byte} (h : 2 < b.toNat) : selectorOf b = none := by
  unfold selectorOf
  repeat' split
  · next he => simp [he] at h
  · next he => simp [he] at h
  · next he => simp [he] at h
  · rfl

theorem fuseField_code_toNat (f : FuseField) : f.code.toNat = f.index.val + 1 := by cases f <;> rfl

theorem fuseField_index_injective {f f' : FuseField} (h : f.index.val = f'.index.val) : f = f' := by
  have listed (f : FuseField) : FuseField.all[f.index.val]? = some f := by cases f <;> rfl
  exact Option.some.inj ((listed f).symm.trans ((congrArg (FuseField.all[·]?) h).trans (listed f')))

theorem code_of_ofCode {b : Byte} {f : FuseField} (h : FuseField.ofCode b = some f) : f.code = b := by
  have := List.find?_some h
  exact beq_iff_eq.1 this

/-! ### Arguments that are none -/

section
variable {b : Byte} (rest : List Byte)

theorem defineArgs_eq_none (h : slotOf b = none) : defineArgs (b :: rest) = none := by
  unfold defineArgs
  split <;> simp_all

theorem slotArg_eq_none (h : slotOf b = none) : slotArg (b :: rest) = none := by
  unfold slotArg
  split <;> simp_all

theorem slotNumberArgs_eq_none (h : slotOf b = none) : slotNumberArgs (b :: rest) = none := by
  unfold slotNumberArgs
  split <;> simp_all

theorem openArgs_eq_none (h : slotOf b = none) : openArgs (b :: rest) = none := by
  unfold openArgs
  split <;> simp_all

theorem readArgs_eq_none (h : slotOf b = none) : readArgs (b :: rest) = none := by
  unfold readArgs
  split <;> simp_all

theorem appendArgs_eq_none (h : handleOf b = none) : appendArgs (b :: rest) = none := by
  unfold appendArgs
  split <;> simp_all

theorem closeArgs_eq_none (h : handleOf b = none) : closeArgs (b :: rest) = none := by
  unfold closeArgs
  split <;> simp_all

theorem handleArg_eq_none (h : handleOf b = none) : handleArg (b :: rest) = none := by
  unfold handleArg
  split <;> simp_all

end

/-- The fields of OPEN_BUILD behind its slot (R64). -/
theorem openArgs_out_of_range (b : Byte) {declared : Word} {im em : Byte}
    (h : declared.toNat < 2 ∨ 1024 < declared.toNat ∨ 1 < im.toNat ∨ 2 < em.toNat) :
    openArgs (b :: (wordBytes declared ++ [im, em])) = none := by
  have field : declaredOf declared = none ∨ interpolationOf im = none ∨ extrapolationOf em = none := by
    obtain h | h | h | h := h
    · exact .inl (declaredOf_eq_none (.inl h))
    · exact .inl (declaredOf_eq_none (.inr h))
    · exact .inr (.inl (interpolationOf_eq_none h))
    · exact .inr (.inr (extrapolationOf_eq_none h))
  simp only [wordBytes, List.cons_append, List.nil_append, openArgs, wordOf_highByte_lowByte]
  split
  · next hd hi he => simp [hd, hi, he] at field
  · rfl

/-- The count byte of APPEND_POINTS (R66). -/
theorem appendArgs_out_of_range (b : Byte) {n : Byte} {ps : List Point}
    (h : n = 0 ∨ 8 < n.toNat ∨ n.toNat ≠ ps.length) : appendArgs (b :: n :: ps.flatMap Point.bytes) = none := by
  simp only [appendArgs, pointsOf_flatMap_bytes]
  split
  · next hp =>
    obtain rfl := Option.some.inj hp
    refine if_neg ?_
    rw [Config.maxFramePoints]
    obtain rfl | h := h
    · simp
    · omega
  · rfl

/-- The fields of READ_POINTS behind its slot (R15). -/
theorem readArgs_out_of_range (b : Byte) {sel n : Byte} {i : Word}
    (h : 2 < sel.toNat ∨ n = 0 ∨ 8 < n.toNat ∨ 1023 < i.toNat) : readArgs (b :: sel :: (wordBytes i ++ [n])) = none := by
  simp only [wordBytes, List.cons_append, List.nil_append, readArgs, wordOf_highByte_lowByte]
  split
  · next hs =>
    refine if_neg ?_
    rw [Config.maxPoints, Config.maxFramePoints]
    obtain h | rfl | h := h
    · simp [selectorOf_eq_none h] at hs
    · simp
    · omega
  · rfl

/-- The fields of PROGRAM_OPTION (R172). -/
theorem optionArgs_out_of_range {b : Byte} {v : Word}
    (h : b = 0 ∨ 8 < b.toNat ∨ ∃ x : FuseField, b = BitVec.ofNat 8 (x.index.val + 1) ∧ x.inRange v = false) :
    optionArgs (b :: wordBytes v) = none := by
  simp only [wordBytes, optionArgs, wordOf_highByte_lowByte]
  split
  · next f hf =>
    have code : f.index.val + 1 = b.toNat := by rw [← code_of_ofCode hf, fuseField_code_toNat]
    refine if_neg fun ⟨hne, hv⟩ => ?_
    obtain rfl | h | ⟨x, hx, hxv⟩ := h
    · cases code
    · have last := f.index.isLt
      exact hne (fuseField_index_injective (f' := .provisionClosed) (by
        show f.index.val = 8
        omega))
    · have same : b.toNat = x.index.val + 1 := hx ▸ fuseField_code_toNat x
      obtain rfl := fuseField_index_injective (f := f) (f' := x) (by omega)
      exact absurd (hv.symm.trans hxv) (by decide)
  · rfl

/-! ### Refusals -/

section
variable {t : State} {p : Port} {f : Frame} (ha : t.isAttached p = true)
include ha

theorem defineTableBody_badArgument (hn : defineArgs f.payload = none) :
    defineTableBody p f t = refuse t .badArgument := by
  simp [defineTableBody, ha, hn]

theorem tableInfoBody_badArgument (hn : slotArg f.payload = none) : tableInfoBody p f t = refuse t .badArgument := by
  simp [tableInfoBody, ha, hn]

theorem proposeRetireBody_badArgument (hn : slotArg f.payload = none) :
    proposeRetireBody p f t = refuse t .badArgument := by
  obtain ⟨n, hs⟩ := Option.isSome_iff_exists.1 ha
  simp [proposeRetireBody, hs, hn]

theorem openBuildBody_badArgument (hn : openArgs f.payload = none) : openBuildBody p f t = refuse t .badArgument := by
  obtain ⟨n, hs⟩ := Option.isSome_iff_exists.1 ha
  simp [openBuildBody, hs, hn]

theorem appendPointsBody_badArgument (hn : appendArgs f.payload = none) :
    appendPointsBody p f t = refuse t .badArgument := by
  simp [appendPointsBody, ha, hn]

theorem closeBuildBody_badArgument (hn : closeArgs f.payload = none) :
    closeBuildBody p f t = refuse t .badArgument := by
  obtain ⟨n, hs⟩ := Option.isSome_iff_exists.1 ha
  simp [closeBuildBody, hs, hn]

theorem cancelBuildBody_badArgument (hn : handleArg f.payload = none) :
    cancelBuildBody p f t = refuse t .badArgument := by
  simp [cancelBuildBody, ha, hn]

theorem approverChecks_badArgument (hn : slotNumberArgs f.payload = none) :
    t.approverChecks p f.payload = .error .badArgument := by
  obtain ⟨n, hs⟩ := Option.isSome_iff_exists.1 ha
  simp [State.approverChecks, hs, hn]

theorem withdrawBody_badArgument (hn : slotArg f.payload = none) : withdrawBody p f t = refuse t .badArgument := by
  simp [withdrawBody, ha, hn]

theorem holdBody_badArgument (hn : slotArg f.payload = none) : holdBody p f t = refuse t .badArgument := by
  obtain ⟨n, hs⟩ := Option.isSome_iff_exists.1 ha
  simp [holdBody, hs, hn]

theorem renewBody_badArgument (hn : slotArg f.payload = none) : renewBody p f t = refuse t .badArgument := by
  simp [renewBody, ha, hn]

theorem releaseBody_badArgument (hn : slotArg f.payload = none) : releaseBody p f t = refuse t .badArgument := by
  simp [releaseBody, ha, hn]

theorem readPointsBody_badArgument (hn : readArgs f.payload = none) :
    readPointsBody p f t = refuse t .badArgument := by
  simp [readPointsBody, ha, hn]

theorem programOptionBody_badArgument (hn : optionArgs f.payload = none) :
    programOptionBody p f t = refuse t .badArgument := by
  simp [programOptionBody, ha, hn]

end

/-- The taking of a control command touches the ports and the pointer of the arbiter, and no port's session. -/
theorem claimCommand_frame {s t : State} {p : Port} {k : CommandKind} {f : Frame}
    (h : s.claimCommand p k = some (f, t)) : t = { s with ports := t.ports, controlPtr := t.controlPtr } := by
  obtain ⟨-, ⟨-, -, rfl⟩ | ⟨-, rfl⟩⟩ := claimCommand_cases h <;> rfl

theorem isAttached_of_claimCommand {s t : State} {p : Port} {k : CommandKind} {f : Frame}
    (h : s.claimCommand p k = some (f, t)) (q : Port) : t.isAttached q = s.isAttached q := by
  rw [claimCommand_frame h]
  rfl

/-- A command whose slot is above 63. -/
theorem slot_out_of_range {s t : State} {p : Port} {f : Frame} {b : Byte} {rest : List Byte} {c : Instr}
    {k : CommandKind} (ha : s.isAttached p = true) (hf : f.payload = b :: rest) (hc : controlRow c = some (p, k))
    (h : s.claimCommand p k = some (f, t))
    (hk : k ∈ [CommandKind.defineTable, .tableInfo, .proposeRetire, .openBuild, .approve, .veto, .withdraw, .hold,
      .renew, .release, .readPoints]) (hb : 63 < b.toNat) : answers c s p f t .badArgument [] := by
  have ha : t.isAttached p = true := (isAttached_of_claimCommand h p).trans ha
  have none_slot := slotOf_eq_none hb
  have arg : slotArg f.payload = none := hf ▸ slotArg_eq_none rest none_slot
  have checks := approverChecks_badArgument ha (hf ▸ slotNumberArgs_eq_none rest none_slot)
  cases c with
  | defineTable =>
    cases hc
    exact controlCommand_answer h (defineTableBody_badArgument ha (hf ▸ defineArgs_eq_none rest none_slot))
  | tableInfo => cases hc; exact controlCommand_answer h (tableInfoBody_badArgument ha arg)
  | proposeRetire => cases hc; exact controlCommand_answer h (proposeRetireBody_badArgument ha arg)
  | openBuild =>
    cases hc
    exact controlCommand_answer h (openBuildBody_badArgument ha (hf ▸ openArgs_eq_none rest none_slot))
  | approve => cases hc; exact controlCommand_answer h (by simp only [approveBody, checks]; rfl)
  | veto => cases hc; exact controlCommand_answer h (by simp only [vetoBody, checks]; rfl)
  | withdraw => cases hc; exact controlCommand_answer h (withdrawBody_badArgument ha arg)
  | hold => cases hc; exact controlCommand_answer h (holdBody_badArgument ha arg)
  | renew => cases hc; exact controlCommand_answer h (renewBody_badArgument ha arg)
  | release => cases hc; exact controlCommand_answer h (releaseBody_badArgument ha arg)
  | readPoints =>
    cases hc
    exact controlCommand_answer h (readPointsBody_badArgument ha (hf ▸ readArgs_eq_none rest none_slot))
  | attach | detach | storeInfo | appendPoints | closeBuild | cancelBuild | readOptions | programOption
  | closeProvisioning => cases hc; exact absurd hk (by decide)
  | lookup | lookupBatch | burnCompletion | laneGrant | captureClaim | releaseClaim | teardownRequest | pendingTeardown
  | buildIdleExpiry | proposalExpiry | leaseExpiry | post | fetch | refetch | drain | status | unknownTransactionKind
  | prstnAsserted | prstnReleased | rstnAsserted | rstnReleased | powerOn | coldStartUp | warmStartUp => cases hc

/-- A command whose handle is above 3 (R62, R66, R68, R72). -/
theorem handle_out_of_range {s t : State} {p : Port} {f : Frame} {b : Byte} {rest : List Byte} {c : Instr}
    {k : CommandKind} (ha : s.isAttached p = true) (hf : f.payload = b :: rest) (hc : controlRow c = some (p, k))
    (h : s.claimCommand p k = some (f, t)) (hk : k ∈ [CommandKind.appendPoints, .closeBuild, .cancelBuild])
    (hb : 3 < b.toNat) : answers c s p f t .badArgument [] := by
  have ha : t.isAttached p = true := (isAttached_of_claimCommand h p).trans ha
  have none_handle := handleOf_eq_none hb
  cases c with
  | appendPoints =>
    cases hc
    exact controlCommand_answer h (appendPointsBody_badArgument ha (hf ▸ appendArgs_eq_none rest none_handle))
  | closeBuild =>
    cases hc
    exact controlCommand_answer h (closeBuildBody_badArgument ha (hf ▸ closeArgs_eq_none rest none_handle))
  | cancelBuild =>
    cases hc
    exact controlCommand_answer h (cancelBuildBody_badArgument ha (hf ▸ handleArg_eq_none rest none_handle))
  | attach | detach | storeInfo | defineTable | tableInfo | proposeRetire | openBuild | approve | veto | withdraw | hold
  | renew | release | readPoints | readOptions | programOption | closeProvisioning =>
    cases hc; exact absurd hk (by decide)
  | lookup | lookupBatch | burnCompletion | laneGrant | captureClaim | releaseClaim | teardownRequest | pendingTeardown
  | buildIdleExpiry | proposalExpiry | leaseExpiry | post | fetch | refetch | drain | status | unknownTransactionKind
  | prstnAsserted | prstnReleased | rstnAsserted | rstnReleased | powerOn | coldStartUp | warmStartUp => cases hc

/-- Settles O6: each command's fields come to no arguments, which is its first check on an attached port. -/
theorem outOfRangeFieldsAreBadArguments : Obligations.OutOfRangeFieldsAreBadArguments := by
  intro s t p f b rest ha hf
  have attached {k : CommandKind} (h : s.claimCommand p k = some (f, t)) : t.isAttached p = true :=
    (isAttached_of_claimCommand h p).trans ha
  refine ⟨fun c k hc h => ⟨slot_out_of_range ha hf hc h, handle_out_of_range ha hf hc h⟩, ?_, ?_, ?_, ?_⟩
  · rintro declared im em h rfl hr
    exact controlCommand_answer h (openBuildBody_badArgument (attached h) (hf ▸ openArgs_out_of_range b hr))
  · rintro n ps h rfl hr
    exact controlCommand_answer h (appendPointsBody_badArgument (attached h) (hf ▸ appendArgs_out_of_range b hr))
  · rintro sel n i h rfl hr
    exact controlCommand_answer h (readPointsBody_badArgument (attached h) (hf ▸ readArgs_out_of_range b hr))
  · rintro v h rfl hr
    exact controlCommand_answer h (programOptionBody_badArgument (attached h) (hf ▸ optionArgs_out_of_range hr))

end Sys2Proof.Machine
end

section
/-! STORE_INFO and READ_POINTS: what their reports say of the tables (R13, R14, R15). -/

namespace Sys2Proof.Machine

/-! ### STORE_INFO -/

/-- A table's FREE entries counted over its indices. -/
theorem freeCount_toList {α : Type} {n : Nat} (v : Vector (Option α) n) {f : Fin n → Bool}
    (hf : ∀ i, f i = v[i].isNone) : freeCount v.toList = (List.finRange n).countP f := by
  have entries : v.toList = (List.finRange n).map (fun i => v[i]) := by
    refine List.ext_getElem (by simp) fun i h1 h2 => ?_
    simp
  rw [freeCount, ← List.countP_eq_length_filter, entries, List.countP_map]
  exact List.countP_congr fun i _ => by rw [Function.comp_apply, hf]

theorem storeReport_eq (s : State) : s.storeReport =
    countBytes s.freeList.length
      ++ [BitVec.ofNat 8 ((List.finRange 128).countP (fun r => s.record r == none)),
          BitVec.ofNat 8 ((List.finRange 4).countP (fun h => s.context h == none)),
          BitVec.ofNat 8 ((List.finRange 8).countP (fun e => s.proposal e == none)),
          BitVec.ofNat 8 ((List.finRange 32).countP (fun e => s.lease e == none)),
          if s.storeLowArmed then 0x01 else 0x00] := by
  have free {α : Type} [DecidableEq α] (x : Option α) : (x == none) = x.isNone := by cases x <;> rfl
  have records := freeCount_toList s.records fun r => free (s.record r)
  have contexts := freeCount_toList s.contexts fun h => free (s.context h)
  have proposals := freeCount_toList s.proposals fun e => free (s.proposal e)
  have leases := freeCount_toList s.leases fun e => free (s.lease e)
  rw [State.storeReport, records, contexts, proposals, leases]
  rfl

theorem storeReport_of_claimCommand {s t : State} {p : Port} {k : CommandKind} {f : Frame}
    (h : s.claimCommand p k = some (f, t)) : t.storeReport = s.storeReport := by
  rw [claimCommand_frame h]
  rfl

/-- Settles O16: its body answers the report, whatever the session. -/
theorem storeInfoReportsFreeResources : Obligations.StoreInfoReportsFreeResources := by
  intro s t p f h
  rw [← storeReport_eq, ← storeReport_of_claimCommand h]
  exact controlCommand_answer (body := storeInfoBody) h rfl

/-! ### READ_POINTS -/

/-- The fields of READ_POINTS in range (R15 step 2). -/
theorem readArgs_eq_some {k : SlotIndex} {sel : Byte} {x : Selector} {i n : Nat} (hs : selectorOf sel = some x)
    (hi : i < 1024) (h1 : 1 ≤ n) (h8 : n ≤ 8) :
    readArgs ([BitVec.ofNat 8 k.val, sel] ++ countBytes i ++ [BitVec.ofNat 8 n]) = some ⟨k, x, i, n⟩ := by
  have slot : slotOf (BitVec.ofNat 8 k.val) = some k :=
    slotOf_eq_some.2 ((BitVec.toNat_ofNat ..).trans (Nat.mod_eq_of_lt (by omega)))
  have index : (BitVec.ofNat 16 i).toNat = i := (BitVec.toNat_ofNat ..).trans (Nat.mod_eq_of_lt (by omega))
  have count : (BitVec.ofNat 8 n).toNat = n := (BitVec.toNat_ofNat ..).trans (Nat.mod_eq_of_lt (by omega))
  simp only [countBytes, wordBytes, List.cons_append, List.nil_append, readArgs, slot, hs, wordOf_highByte_lowByte,
    index, count]
  exact if_pos ⟨hi, h1, h8⟩

theorem selectRecord_of_claimCommand {s t : State} {p : Port} {k : CommandKind} {f : Frame}
    (h : s.claimCommand p k = some (f, t)) (q : Port) (x : SlotIndex) (sel : Selector) :
    t.selectRecord q x sel = s.selectRecord q x sel := by
  rw [claimCommand_frame h]
  rfl

/-! What a selector selects, check by check (R15 steps 3 to 5). -/

section
variable {s : State} {p : Port} {k : SlotIndex} {d : TableDef} {r : RecordIndex}

theorem selectRecord_current_notLive (h : ∀ d r, (s.slot k).state ≠ .live d r) :
    s.selectRecord p k .current = .error .notLive := by
  unfold State.selectRecord
  cases hs : (s.slot k).state with
  | live d r => exact absurd hs (h d r)
  | vacant | defined d | retiring d => rfl

theorem selectRecord_current (h : (s.slot k).state = .live d r) :
    s.selectRecord p k .current = if PortSet.has d.readers p then .ok r else .error .noAccess := by
  simp only [State.selectRecord, h]

theorem selectRecord_vacant {x : Selector} (hx : x ≠ .current) (h : (s.slot k).state = .vacant) :
    s.selectRecord p k x = .error .slotState := by
  cases x with
  | current => exact absurd rfl hx
  | leased | pending => simp only [State.selectRecord, h, SlotState.definition]

theorem selectRecord_leased_noAccess (h : (s.slot k).state.definition = some d)
    (hd : PortSet.has d.readers p = false) : s.selectRecord p k .leased = .error .noAccess := by
  simp [State.selectRecord, h, hd]

theorem selectRecord_leased_noLease (h : (s.slot k).state.definition = some d)
    (hd : PortSet.has d.readers p = true) (hl : s.callersLease p k = none) :
    s.selectRecord p k .leased = .error .noLease := by
  simp [State.selectRecord, h, hd, hl]

theorem selectRecord_leased {e : LeaseIndex} {l : Lease} (h : (s.slot k).state.definition = some d)
    (hd : PortSet.has d.readers p = true) (hl : s.callersLease p k = some (e, l)) :
    s.selectRecord p k .leased = .ok l.record := by
  simp [State.selectRecord, h, hd, hl]

theorem selectRecord_pending_noAccess (h : (s.slot k).state.definition = some d)
    (ha : PortSet.has d.approvers p = false) (hb : PortSet.has d.builders p = false) :
    s.selectRecord p k .pending = .error .noAccess := by
  simp [State.selectRecord, h, ha, hb]

theorem selectRecord_pending_noProposal (h : (s.slot k).state.definition = some d)
    (hd : PortSet.has d.approvers p = true ∨ PortSet.has d.builders p = true)
    (hq : ∀ q, (s.slot k).proposal.bind s.proposal = some q → q.change = .retire) :
    s.selectRecord p k .pending = .error .noProposal := by
  cases hc : (s.slot k).proposal.bind s.proposal with
  | none => obtain hd | hd := hd <;> simp [State.selectRecord, h, hd, hc]
  | some q => obtain hd | hd := hd <;> simp [State.selectRecord, h, hd, hc, hq q hc]

theorem selectRecord_pending {e : ProposalIndex} {q : Proposal} (h : (s.slot k).state.definition = some d)
    (hd : PortSet.has d.approvers p = true ∨ PortSet.has d.builders p = true) (he : (s.slot k).proposal = some e)
    (hq : s.proposal e = some q) (hc : q.change = .commit r) : s.selectRecord p k .pending = .ok r := by
  obtain hd | hd := hd <;> simp [State.selectRecord, h, hd, he, hq, hc]

end

/-! The row, once it is known what its selector selects. -/

section
variable {s t : State} {p : Port} {f : Frame} {k : SlotIndex} {sel : Byte} {x : Selector} {i n : Nat} {r : RecordIndex}
  {g : GenRecord} (h : s.claimCommand p .readPoints = some (f, t)) (ha : s.isAttached p = true)
  (hargs : readArgs f.payload = some ⟨k, x, i, n⟩)
include h ha hargs

theorem readPoints_refused {st : Status} (hs : s.selectRecord p k x = .error st) :
    answers (.readPoints p) s p f t st [] := by
  refine controlCommand_answer (body := readPointsBody p) h ?_
  simp only [readPointsBody, isAttached_of_claimCommand h, ha, hargs, selectRecord_of_claimCommand h, hs]
  rfl

theorem readPoints_beyond (hs : s.selectRecord p k x = .ok r) (hr : s.record r = some g) (hn : g.pointCount < i + n) :
    answers (.readPoints p) s p f t .badArgument [] := by
  have record : t.record r = some g := by rw [claimCommand_frame h]; exact hr
  refine controlCommand_answer (body := readPointsBody p) h ?_
  simp only [readPointsBody, isAttached_of_claimCommand h, ha, hargs, selectRecord_of_claimCommand h, hs, record,
    if_pos hn]
  rfl

theorem readPoints_points {ps : List Point} (hs : s.selectRecord p k x = .ok r) (hr : s.record r = some g)
    (hn : i + n ≤ g.pointCount) (hp : readRun s.store g.blocks i n = some ps) :
    answers (.readPoints p) s p f t .ok
      (wordBytes g.number ++ countBytes g.pointCount ++ wordBytes (g.state.checksum.getD 0) ++ [BitVec.ofNat 8 n]
        ++ ps.flatMap Point.bytes) := by
  have record : t.record r = some g := by rw [claimCommand_frame h]; exact hr
  have store : t.store = s.store := by rw [claimCommand_frame h]
  have length : ps.length = n := (readRun_eq_some.1 hp).1
  refine controlCommand_answer (body := readPointsBody p) h ?_
  simp only [readPointsBody, isAttached_of_claimCommand h, ha, hargs, selectRecord_of_claimCommand h, hs, record, store,
    if_neg (Nat.not_lt.2 hn), hp, length]
  rfl

end

/-- Settles O18: the checks are those of the selection, and a record with a block for each point has them all. -/
theorem readPointsReturnsStoredPoints : Obligations.ReadPointsReturnsStoredPoints := by
  intro s t p f k sel i n h hf ha hi h1 h8
  have args {x : Selector} (hx : selectorOf sel = some x) : readArgs f.payload = some ⟨k, x, i, n⟩ :=
    hf ▸ readArgs_eq_some hx hi h1 h8
  have refuses {x : Selector} {st : Status} (hx : selectorOf sel = some x) (hs : s.selectRecord p k x = .error st) :
      answers (.readPoints p) s p f t st [] := readPoints_refused h ha (args hx) hs
  refine ⟨?_, ?_, fun d hd => ⟨?_, ?_⟩, fun r g hsel hr => ?_⟩
  · rintro rfl
    exact ⟨fun hl => refuses rfl (selectRecord_current_notLive hl),
      fun d r hl hd => refuses rfl ((selectRecord_current hl).trans (if_neg (Bool.eq_false_iff.1 hd)))⟩
  · rintro (rfl | rfl) hv
    · exact refuses rfl (selectRecord_vacant (x := .leased) nofun hv)
    · exact refuses rfl (selectRecord_vacant (x := .pending) nofun hv)
  · rintro rfl
    exact ⟨fun hn => refuses rfl (selectRecord_leased_noAccess hd hn),
      fun hy hl => refuses rfl (selectRecord_leased_noLease hd hy hl)⟩
  · rintro rfl
    refine ⟨fun hna hnb => refuses rfl (selectRecord_pending_noAccess hd hna hnb), fun hy => ⟨fun hn => ?_, ?_⟩⟩
    · exact refuses rfl (selectRecord_pending_noProposal hd hy fun q hq => by simp [hn] at hq)
    · intro e q he hq hc
      refine refuses rfl (selectRecord_pending_noProposal hd hy fun q' hq' => ?_)
      rw [he, Option.bind_some, hq] at hq'
      rwa [← Option.some.inj hq']
  · have selected : ∃ x, selectorOf sel = some x ∧ s.selectRecord p k x = .ok r := by
      obtain ⟨rfl, d, hl, hy⟩ | ⟨rfl, d, e, l, hd, hy, hl, rfl⟩ | ⟨rfl, d, e, q, hd, hy, he, hq, hc⟩ := hsel
      · exact ⟨.current, rfl, (selectRecord_current hl).trans (if_pos hy)⟩
      · exact ⟨.leased, rfl, selectRecord_leased hd hy hl⟩
      · exact ⟨.pending, rfl, selectRecord_pending hd hy he hq hc⟩
    obtain ⟨x, hx, hs⟩ := selected
    refine ⟨readPoints_beyond h ha (args hx) hs hr, fun hn hb => ?_⟩
    obtain ⟨ps, hp⟩ := exists_readRun s.store (blocks := g.blocks) (i := i) (n := n) (by omega)
    obtain ⟨length, points⟩ := readRun_eq_some.1 hp
    refine ⟨ps, length, fun j hj => ?_, readPoints_points h ha (args hx) hs hr hn hp⟩
    obtain ⟨a, ha, hpa⟩ := points j hj
    obtain ⟨b, hb, rfl⟩ := locate_eq_some.1 ha
    exact ⟨b, hb, hpa⟩

end Sys2Proof.Machine
end

section
/-! The arithmetic of a lookup: rounding, the segment of an input, and the result of an input inside and outside the
range of a table (R30 to R35). -/

namespace Sys2Proof.Machine

/-! ### Rounding (R32) -/

/-- `q` is the integer nearest to `n` divided by `d`, the one farther from zero at a half-way case. -/
def IsNearest (n d q : Int) : Prop := 2 * |n - q * d| ≤ d ∧ (2 * |n - q * d| = d → |n| < |q| * d)

theorem IsNearest.le {n d q k : Int} (h : IsNearest n d q) (hd : 0 < d) (hn : n ≤ k * d) : q ≤ k := by
  have near := (abs_le.1 (show |2 * (n - q * d)| ≤ d by rw [abs_mul]; exact h.1)).1
  have : q * d < (k + 1) * d := by linarith
  exact Int.lt_add_one_iff.1 (lt_of_mul_lt_mul_right this hd.le)

theorem IsNearest.neg {n d q : Int} (h : IsNearest n d q) : IsNearest (-n) d (-q) := by
  have dist : |-n - -q * d| = |n - q * d| := by rw [← abs_neg]; congr 1; ring
  unfold IsNearest
  rwa [dist, abs_neg, abs_neg]

theorem IsNearest.ge {n d q k : Int} (h : IsNearest n d q) (hd : 0 < d) (hn : k * d ≤ n) : k ≤ q :=
  neg_le_neg_iff.1 (h.neg.le hd (by linarith))

theorem roundedQuotient_neg {n : Int} (hn : 0 < n) (d : Nat) : roundedQuotient (-n) d = -roundedQuotient n d := by
  simp [roundedQuotient, hn, hn.le]

/-- The quotient and the remainder of a division decide the side on which the nearest integer lies. -/
theorem isNearest_roundedQuotient_of_nonneg {n : Int} (hn : 0 ≤ n) {d : Nat} (hd : 0 < d) :
    IsNearest n d (roundedQuotient n d) := by
  lift n to Nat using hn
  have split : d * (n / d) + n % d = n := Nat.div_add_mod n d
  have small : n % d < d := Nat.mod_lt n hd
  have quotient : roundedQuotient n d = ((if d ≤ 2 * (n % d) then n / d + 1 else n / d : Nat) : Int) := by
    simp [roundedQuotient]
  have rest : (n : Int) = n / d * d + n % d := by exact_mod_cast (by rw [Nat.mul_comm]; exact split.symm)
  rw [quotient]
  unfold IsNearest
  split
  · next half =>
    have dist : (n : Int) - ((n / d + 1 : Nat) : Int) * d = -((d : Int) - n % d) := by push_cast; linarith
    rw [dist, abs_neg, abs_of_nonneg (by omega), Nat.abs_cast, Nat.abs_cast]
    push_cast
    exact ⟨by omega, fun _ => by linarith [show ((n % d : Nat) : Int) < d by exact_mod_cast small]⟩
  · next below =>
    have dist : (n : Int) - ((n / d : Nat) : Int) * d = n % d := by push_cast; linarith
    rw [dist, abs_of_nonneg (by omega)]
    exact ⟨by omega, fun h => absurd h (by omega)⟩

theorem isNearest_roundedQuotient (n : Int) {d : Nat} (hd : 0 < d) : IsNearest n d (roundedQuotient n d) := by
  obtain hn | hn := le_or_gt 0 n
  · exact isNearest_roundedQuotient_of_nonneg hn hd
  · have mirrored := (isNearest_roundedQuotient_of_nonneg (n := -n) (by omega) hd).neg
    rwa [← roundedQuotient_neg (by omega), neg_neg] at mirrored

/-- A part of a difference, rounded, lies between 0 and the difference. -/
theorem IsNearest.between {t d e q : Int} (h : IsNearest (t * e) d q) (hd : 0 < d) (h0 : 0 ≤ t) (h1 : t ≤ d) :
    min 0 e ≤ q ∧ q ≤ max 0 e := by
  obtain he | he := le_total 0 e
  · rw [min_eq_left he, max_eq_right he]
    exact ⟨h.ge hd (by simpa using mul_nonneg h0 he), h.le hd (by nlinarith)⟩
  · rw [min_eq_right he, max_eq_left he]
    exact ⟨h.ge hd (by nlinarith), h.le hd (by simpa using mul_nonpos_of_nonneg_of_nonpos h0 he)⟩

/-- The line through two points, at the anchor's y plus the nearest integer (R32, R34). -/
theorem exists_lineValue (anchor : Point) {a b : Point} (h : a.x.toInt < b.x.toInt) (x : Int) :
    ∃ q, lineValue anchor a b x = anchor.y.toInt + q
      ∧ IsNearest ((x - anchor.x.toInt) * (b.y.toInt - a.y.toInt)) (b.x.toInt - a.x.toInt) q := by
  have near := isNearest_roundedQuotient ((x - anchor.x.toInt) * (b.y.toInt - a.y.toInt))
    (d := (b.x.toInt - a.x.toInt).toNat) (by omega)
  rw [Int.toNat_of_nonneg (by omega)] at near
  exact ⟨_, rfl, near⟩

/-! ### Words -/

theorem toInt_ofInt_word {v : Int} (h : -32768 ≤ v) (h' : v ≤ 32767) : (BitVec.ofInt 16 v).toInt = v :=
  BitVec.toInt_ofInt_eq_self (by decide) h (Int.lt_add_one_of_le h')

theorem toInt_word_range (v : Word) : -32768 ≤ v.toInt ∧ v.toInt ≤ 32767 :=
  ⟨BitVec.le_toInt v, Int.le_of_lt_add_one v.toInt_lt⟩

/-! ### Tables whose x values rise strictly (R1) -/

theorem pointAt_of_getElem? {ps : List Point} {i : Nat} {a : Point} (h : ps[i]? = some a) : pointAt ps i = a := by
  simp [pointAt, h]

theorem x_lt_of_rising {ps : List Point} (h : ps.Pairwise (fun a b => a.x.toInt < b.x.toInt)) {i j : Nat} {a b : Point}
    (hi : ps[i]? = some a) (hj : ps[j]? = some b) (hij : i < j) : a.x.toInt < b.x.toInt := by
  obtain ⟨li, rfl⟩ := List.getElem?_eq_some_iff.1 hi
  obtain ⟨lj, rfl⟩ := List.getElem?_eq_some_iff.1 hj
  exact List.pairwise_iff_getElem.1 h i j li lj hij

theorem x_le_of_rising {ps : List Point} (h : ps.Pairwise (fun a b => a.x.toInt < b.x.toInt)) {i j : Nat} {a b : Point}
    (hi : ps[i]? = some a) (hj : ps[j]? = some b) (hij : i ≤ j) : a.x.toInt ≤ b.x.toInt := by
  obtain rfl | hij := hij.eq_or_lt
  · rw [Option.some.inj (hi.symm.trans hj)]
  · exact (x_lt_of_rising h hi hj hij).le

/-! ### Inputs inside the range -/

section
variable {ps : List Point} {x : Int} {i : Nat} {a : Point} (h : ps.Pairwise (fun a b => a.x.toInt < b.x.toInt))
  (hi : ps[i]? = some a) (hn : ∀ b, ps[i + 1]? = some b → x < b.x.toInt) (hx : a.x.toInt ≤ x)
include h hi hn

/-- An input at or above a segment's point is not above the table, when at the last point it is that point's x. -/
theorem le_last_x (hend : ps.length = i + 1 → x = a.x.toInt) {last : Point} (hl : ps[ps.length - 1]? = some last) :
    x ≤ last.x.toInt := by
  obtain ⟨li, -⟩ := List.getElem?_eq_some_iff.1 hi
  obtain atEnd | before : ps.length = i + 1 ∨ i + 1 < ps.length := by omega
  · rw [hend atEnd]
    exact x_le_of_rising h hi hl (by omega)
  · have next : ps[i + 1]? = some ps[i + 1] := List.getElem?_eq_getElem before
    exact (hn _ next).le.trans (x_le_of_rising h next hl (by omega))

include hx

/-- The points not above the input are those up to the segment's. -/
theorem pointAt_x_le_iff {j : Nat} (hj : j < ps.length) : (pointAt ps j).x.toInt ≤ x ↔ j ≤ i := by
  have hjs : ps[j]? = some ps[j] := List.getElem?_eq_getElem hj
  rw [pointAt_of_getElem? hjs]
  refine ⟨fun hle => ?_, fun hji => (x_le_of_rising h hjs hi hji).trans hx⟩
  by_contra hij
  have next : ps[i + 1]? = some (ps[i + 1]'(by omega)) := List.getElem?_eq_getElem _
  have above := hn _ next
  have later := x_le_of_rising h next hjs (by omega)
  omega

/-- The segment of an input (R30). -/
theorem segmentIndex_eq : segmentIndex ps x = i := by
  obtain ⟨li, -⟩ := List.getElem?_eq_some_iff.1 hi
  have parts : List.range ps.length = List.range i ++ [i] ++ (List.range (ps.length - (i + 1))).map (i + 1 + ·) := by
    rw [← List.range_succ, ← List.range_add]
    congr 1
    omega
  have upTo : (List.range ps.length).filter (fun j => (pointAt ps j).x.toInt ≤ x)
      = (List.range ps.length).filter (fun j => j ≤ i) :=
    List.filter_congr fun j hj => by simp [pointAt_x_le_iff h hi hn hx (List.mem_range.1 hj)]
  have beyond : ((List.range (ps.length - (i + 1))).map (i + 1 + ·)).filter (fun j => j ≤ i) = [] :=
    List.filter_eq_nil_iff.2 fun j hj => by
      obtain ⟨k, -, rfl⟩ := List.mem_map.1 hj
      rw [decide_eq_true_iff]
      omega
  unfold segmentIndex
  rw [upTo, parts, List.filter_append, beyond, List.filter_append]
  simp

end

/-- An input inside the range takes the value inside and no flag but STALE. -/
theorem evaluateInput_inside {ps : List Point} {first last : Point} {x : Word} (hf : ps[0]? = some first)
    (hl : ps[ps.length - 1]? = some last) (h0 : first.x.toInt ≤ x.toInt) (h1 : x.toInt ≤ last.x.toInt)
    (m : Interpolation) (e : Extrapolation) (stale : Bool) :
    evaluateInput m e stale ps x
      = ⟨BitVec.ofInt 16 (insideValue m ps x.toInt), { ResultFlags.none with stale := stale }⟩ := by
  simp only [evaluateInput, pointAt_of_getElem? hf, pointAt_of_getElem? hl, if_neg h0.not_gt, if_neg h1.not_gt]

/-- Settles O37: the segment's two points bound the value on its line, so that narrowing keeps it. -/
theorem insideInputsInterpolate : Obligations.InsideInputsInterpolate := by
  intro ps e stale x i a h hi hx hn hend
  obtain ⟨li, -⟩ := List.getElem?_eq_some_iff.1 hi
  have first : ps[0]? = some (ps[0]'(by omega)) := List.getElem?_eq_getElem _
  have last : ps[ps.length - 1]? = some (ps[ps.length - 1]'(by omega)) := List.getElem?_eq_getElem _
  have inside (m : Interpolation) := evaluateInput_inside (x := x) first last
    ((x_le_of_rising h first hi (by omega)).trans hx)
    (le_last_x h hi hn (fun atEnd => congrArg BitVec.toInt (hend atEnd)) last) m e stale
  have index := segmentIndex_eq h hi hn hx
  have point := pointAt_of_getElem? hi
  refine ⟨?_, fun atEnd => ?_, fun b hb => ?_⟩
  · rw [inside, insideValue, index, point]
    exact congrArg (LookupResult.mk · _) BitVec.ofInt_toInt
  · rw [inside, insideValue, index, point, if_neg (by omega)]
    exact congrArg (LookupResult.mk · _) BitVec.ofInt_toInt
  · have before := (List.getElem?_eq_some_iff.1 hb).1
    have below := hn b hb
    obtain ⟨q, line, near⟩ := exists_lineValue a (x_lt_of_rising h hi hb (by omega)) x.toInt
    have between := near.between (by omega) (by omega) (by omega)
    have ya := toInt_word_range a.y
    have yb := toInt_word_range b.y
    have value : (BitVec.ofInt 16 (a.y.toInt + q)).toInt = a.y.toInt + q := toInt_ofInt_word (by omega) (by omega)
    refine ⟨BitVec.ofInt 16 (a.y.toInt + q), q, ?_, value, near.1, near.2, by omega, by omega⟩
    rw [inside, insideValue, index, point, pointAt_of_getElem? hb, if_pos before, line]
    rfl

/-! ### Inputs outside the range -/

/-- When a sum is brought into the 16-bit range, and to what (R34). -/
theorem saturated_ne_iff (v : Int) : saturated v ≠ v ↔ v < -32768 ∨ 32767 < v := by
  unfold saturated
  omega

theorem saturated_range (v : Int) : -32768 ≤ saturated v ∧ saturated v ≤ 32767 := by
  unfold saturated
  omega

/-- The narrowed sum is the sum where it fits, and the nearer end of the range where it does not. -/
theorem toInt_saturated (v : Int) :
    (-32768 ≤ v → v ≤ 32767 → (BitVec.ofInt 16 (saturated v)).toInt = v)
      ∧ (v < -32768 → (BitVec.ofInt 16 (saturated v)).toInt = -32768)
      ∧ (32767 < v → (BitVec.ofInt 16 (saturated v)).toInt = 32767) := by
  obtain ⟨low, high⟩ := saturated_range v
  rw [toInt_ofInt_word low high, saturated]
  omega

section
variable {ps : List Point} {first second last previous : Point} (hf : ps[0]? = some first) (hs : ps[1]? = some second)
  (hl : ps[ps.length - 1]? = some last) (hp : ps[ps.length - 2]? = some previous)

include hf hl in
theorem evaluateInput_outside {x : Word} (hx : x.toInt < first.x.toInt ∨ last.x.toInt < x.toInt) (m : Interpolation)
    (e : Extrapolation) (stale : Bool) :
    evaluateInput m e stale ps x = outsideResult m e ps (decide (x.toInt < first.x.toInt)) x.toInt stale := by
  simp only [evaluateInput, pointAt_of_getElem? hf, pointAt_of_getElem? hl]
  by_cases below : x.toInt < first.x.toInt
  · rw [if_pos below, decide_eq_true below]
  · rw [if_neg below, if_pos (hx.resolve_left below), decide_eq_false below]

include hf hl in
/-- The end point on the input's side (R33). -/
theorem endValue_eq (below : Bool) : endValue ps below = (if below then first else last).y.toInt := by
  cases below
  · exact congrArg (·.y.toInt) (pointAt_of_getElem? hl)
  · exact congrArg (·.y.toInt) (pointAt_of_getElem? hf)

include hf hs hl hp in
/-- The end segment on the input's side, anchored at the end point (R34). -/
theorem extendedValue_eq (below : Bool) (x : Int) :
    extendedValue ps below x = lineValue (if below then first else last) (if below then first else previous)
      (if below then second else last) x := by
  cases below
  · simp [extendedValue, pointAt_of_getElem? hl, pointAt_of_getElem? hp]
  · simp [extendedValue, pointAt_of_getElem? hf, pointAt_of_getElem? hs]

end

/-- Settles O38: with LINEAR and EXTEND the sum is the end segment's line, narrowed by saturation. -/
theorem outsideInputsFollowExtrapolation : Obligations.OutsideInputsFollowExtrapolation := by
  intro ps m stale x first second last previous h two hf hs hl hp hx
  refine ⟨decide (x.toInt < first.x.toInt), decide_eq_true_iff, ?_⟩
  simp only [evaluateInput_outside hf hl hx]
  generalize decide (x.toInt < first.x.toInt) = below
  have rise : (if below then first else previous).x.toInt < (if below then second else last).x.toInt := by
    cases below
    · exact x_lt_of_rising h hp hl (by omega)
    · exact x_lt_of_rising h hf hs (by omega)
  obtain ⟨q, line, near⟩ := exists_lineValue (if below then first else last) rise x.toInt
  have clamped : BitVec.ofInt 16 (endValue ps below) = (if below then first else last).y := by
    rw [endValue_eq hf hl]
    exact BitVec.ofInt_toInt
  refine ⟨congrArg (LookupResult.mk · _) clamped, congrArg (LookupResult.mk · _) clamped, rfl,
    BitVec.ofInt 16 (saturated ((if below then first else last).y.toInt + q)), q, near.1, near.2, ?_, toInt_saturated _⟩
  simp only [outsideResult, extendedValue_eq hf hs hl hp, line, saturated_ne_iff]
  rfl

end Sys2Proof.Machine
end

section
/-! Lookups: the grant of a lane, the dispatch checks of a capture claim in their order, the completion of a lookup, and
the two commands that carry a lookup out whole (R23 to R29, R36 to R38). -/

namespace Sys2Proof.Machine

/-! ### The grant (R23) -/

theorem laneEligible_iff {s : State} {p : Port} :
    s.laneEligible p = true ↔ s.isEnabled p = true ∧ (s.port p).resetting = false ∧ (s.port p).inExec = none
      ∧ ∃ f rest, (s.port p).cmdQueue = f :: rest ∧ f.kind.isLookup = true := by
  cases hq : (s.port p).cmdQueue <;> simp [State.laneEligible, State.mayPass, hq, and_assoc]

/-- The state after a grant of lane `l` to port `p`, whose command is `f` (R23). -/
def State.afterGrant (s : State) (l : LaneIndex) (p : Port) (f : Frame) (rest : List Frame) : State :=
  { (s.setPort p { s.port p with cmdQueue := rest, inExec := some ⟨f, false⟩ }).setLane l
      (some (LaneWork.ofFrame p f)) with lanePtr := p + 1 }

theorem grantLane_eq {s : State} {l : LaneIndex} {p : Port} {f : Frame} {rest : List Frame} (hl : s.idleLane = some l)
    (hp : s.laneChoice = some p) (hq : (s.port p).cmdQueue = f :: rest) :
    s.grantLane = some (l, s.afterGrant l p f rest) := by
  simp only [State.grantLane, hl, hp, hq, State.passHead, State.updPort]
  rfl

theorem ofFrame_lookup {p : Port} {f : Frame} {kb opt hi lo : Byte} (hk : f.kind = .lookup)
    (hf : f.payload = [kb, opt, hi, lo]) :
    LaneWork.ofFrame p f =
      { port := p, frame := f, slot := kb, options := opt, count := 1, inputs := [wordOf hi lo], capture := none } := by
  simp [LaneWork.ofFrame, hk, hf, wordsOf]

theorem ofFrame_lookupBatch {p : Port} {f : Frame} {kb opt n : Byte} {inputs : List Word} (hk : f.kind = .lookupBatch)
    (hf : f.payload = [kb, opt, n] ++ inputs.flatMap wordBytes) :
    LaneWork.ofFrame p f =
      { port := p, frame := f, slot := kb, options := opt, count := n.toNat, inputs := inputs, capture := none } := by
  simp [LaneWork.ofFrame, hk, hf]

/-- Settles O33: the grant is that of the arbiter's choice, and each kind fills its own working record. -/
theorem laneGrantTakesFirstEligiblePort : Obligations.LaneGrantTakesFirstEligiblePort := by
  intro s l p f rest i hr hl hl' hp hj hen hres hex hq
  have grant (hk : f.kind.isLookup = true) : exec .laneGrant s = .next (s.afterGrant l p f rest) := by
    have eligible : s.laneEligible p = true := laneEligible_iff.2 ⟨hen, hres, hex, f, rest, hq, hk⟩
    have choice : s.laneChoice = some p := find?_portsFrom_eq_some.2 ⟨i, hp, eligible, hj⟩
    have running : s.isRunning = true := by rw [State.isRunning, hr]; rfl
    show execLaneGrant s = _
    simp only [execLaneGrant, running, grantLane_eq (idleLane_eq_some.2 ⟨hl, hl'⟩) choice hq]
  refine ⟨fun kb opt hi lo hk hf => ?_, fun kb opt n inputs hk hf => ?_⟩
  · rw [grant (by rw [hk]; rfl), State.afterGrant, ofFrame_lookup hk hf]
  · rw [grant (by rw [hk]; rfl), State.afterGrant, ofFrame_lookupBatch hk hf]

/-! ### The dispatch checks (R26, R27) -/

/-- A field of the lookup out of its range, or a batch whose count is not that of its inputs (R26 step 2). -/
def LaneWork.outOfRange (w : LaneWork) : Prop :=
  63 < w.slot.toNat ∨ 2 < w.options.toNat ∨ w.count = 0 ∨ 16 < w.count ∨ w.count ≠ w.inputs.length

theorem lookupOptions_cases {o : Byte} (h : o.toNat ≤ 2) : o = 0 ∨ o = 1 ∨ o = 2 := by
  bv_omega

theorem ignoreLease_iff {o : Byte} (h : o.toNat ≤ 2) : ignoreLease o = true ↔ o = 1 := by
  obtain rfl | rfl | rfl := lookupOptions_cases h <;> decide

theorem requireLease_iff {o : Byte} (h : o.toNat ≤ 2) : requireLease o = true ↔ o = 2 := by
  obtain rfl | rfl | rfl := lookupOptions_cases h <;> decide

/-- The range check of a capture claim on the fields behind the slot (R26 step 2). -/
theorem rangeCheck_iff (w : LaneWork) :
    (!optionsInRange w.options || w.count == 0 || decide (Config.maxInputs < w.count) || w.count != w.inputs.length) = true
      ↔ 2 < w.options.toNat ∨ w.count = 0 ∨ 16 < w.count ∨ w.count ≠ w.inputs.length := by
  simp only [optionsInRange, Bool.or_eq_true, Bool.not_eq_true', decide_eq_false_iff_not, not_lt,
    decide_eq_true_iff, beq_iff_eq, bne_iff_ne, or_assoc]
  exact Iff.rfl

/-- No lease applies to a caller that holds none or ignores it (R26, R27). -/
theorem no_lease_applies {s : State} {w : LaneWork} {k : SlotIndex} (hw : w.options.toNat ≤ 2)
    (hx : s.callersLease w.port k = none ∨ w.options = 1) :
    (if ignoreLease w.options = true then none else (s.callersLease w.port k).map (fun l => l.2.record)) = none := by
  obtain hx | ho := hx
  · rw [hx]
    exact ite_self _
  · exact if_pos ((ignoreLease_iff hw).2 ho)

section
variable {s : State} {w : LaneWork}

theorem captureChecks_notAttached (ha : s.isAttached w.port = false) : s.captureChecks w = .error .notAttached := by
  simp [State.captureChecks, ha]

theorem captureChecks_outOfRange (ha : s.isAttached w.port = true) (hw : w.outOfRange) :
    s.captureChecks w = .error .badArgument := by
  simp only [State.captureChecks, ha, Bool.not_true, Bool.false_eq_true, if_false]
  cases hk : slotOf w.slot with
  | none => rfl
  | some k =>
    have bound := slotOf_eq_some.1 hk
    exact if_pos ((rangeCheck_iff w).2 (hw.resolve_left (by omega)))

variable {k : SlotIndex} {d : TableDef} {r : RecordIndex} (ha : s.isAttached w.port = true)
  (hk : k.val = w.slot.toNat) (hw : ¬w.outOfRange)
include ha hk hw

/-- The lease that applies decides, against the slot's readers (R26, R27). -/
theorem captureChecks_leased {e : LeaseIndex} {x : Lease} (hx : s.callersLease w.port k = some (e, x))
    (ho : w.options ≠ 1) (hd : (s.slot k).state.definition = some d) :
    s.captureChecks w = if PortSet.has d.readers w.port then
      .ok (x.record, decide ((s.slot k).state.current ≠ some x.record)) else .error .noAccess := by
  have slot : slotOf w.slot = some k := slotOf_eq_some.2 hk.symm
  obtain ⟨-, range⟩ := not_or.1 hw
  have noIgnore : ¬ignoreLease w.options = true := by rwa [ignoreLease_iff (by omega)]
  have stale : ((s.slot k).state.current != some x.record) = decide ((s.slot k).state.current ≠ some x.record) :=
    Bool.eq_iff_iff.2 (bne_iff_ne.trans decide_eq_true_iff.symm)
  simp only [State.captureChecks, ha, slot, mt (rangeCheck_iff w).1 range, noIgnore, hx, hd, ← stale]
  rfl

/-- Without a lease that applies the slot must be LIVE (R26, R27). -/
theorem captureChecks_notLive (hx : s.callersLease w.port k = none ∨ w.options = 1)
    (hs : ∀ d r, (s.slot k).state ≠ .live d r) : s.captureChecks w = .error .notLive := by
  have slot : slotOf w.slot = some k := slotOf_eq_some.2 hk.symm
  obtain ⟨-, range⟩ := not_or.1 hw
  have current : (s.slot k).state.current = none := by
    cases h : (s.slot k).state with
    | live d r => exact absurd h (hs d r)
    | vacant | defined d | retiring d => rfl
  simp only [State.captureChecks, ha, slot, mt (rangeCheck_iff w).1 range, no_lease_applies (by omega) hx, current]
  rfl

/-- Without a lease that applies the CURRENT record of a LIVE slot is captured, unless a lease is required (R26, R27). -/
theorem captureChecks_live (hx : s.callersLease w.port k = none ∨ w.options = 1) (hs : (s.slot k).state = .live d r) :
    s.captureChecks w = if PortSet.has d.readers w.port then
      (if w.options = 2 then .error .noLease else .ok (r, false)) else .error .noAccess := by
  have slot : slotOf w.slot = some k := slotOf_eq_some.2 hk.symm
  obtain ⟨-, range⟩ := not_or.1 hw
  simp only [State.captureChecks, ha, slot, mt (rangeCheck_iff w).1 range, no_lease_applies (by omega) hx, hs,
    SlotState.definition, SlotState.current, requireLease_iff (o := w.options) (by omega)]
  cases PortSet.has d.readers w.port <;> rfl

end

/-! ### The capture claim (R28) -/

section
variable {s : State} {w : LaneWork}

/-- A lookup that is captured has its fields in range (R26). -/
theorem inRange_of_captureChecks {x : RecordIndex × Bool} (h : s.captureChecks w = .ok x) : ¬w.outOfRange := by
  intro hw
  cases ha : s.isAttached w.port with
  | false => cases (captureChecks_notAttached ha).symm.trans h
  | true => cases (captureChecks_outOfRange ha hw).symm.trans h

theorem takeCapture_of_error {st : Status} (l : LaneIndex) (h : s.captureChecks w = .error st) :
    s.takeCapture l w = (s.deliverResponse w.port ⟨w.frame.kind, w.frame.tag, st, []⟩).setLane l none := by
  simp only [State.takeCapture, h]

theorem takeCapture_of_ok {r : RecordIndex} {stale : Bool} {g : GenRecord} (l : LaneIndex)
    (h : s.captureChecks w = .ok (r, stale)) (hr : s.record r = some g) :
    s.takeCapture l w = (s.setRecord r (some { g with refCount := g.refCount + 1 })).setLane l
      (some { w with capture := some { record := r, stale := stale, results := [] } }) := by
  simp only [State.takeCapture, h, raiseReference_of_some hr]

end

/-- Settles O34: the row is the capture of its lane, whose checks stand above in their order. -/
theorem captureClaimChecksAndEffect : Obligations.CaptureClaimChecksAndEffect := by
  intro s l w hc hl hw
  have row : exec (.captureClaim l) s = .next (s.takeCapture l w) := by
    show execCaptureClaim l s = _
    simp only [execCaptureClaim, hc, hl, hw]
  have refused {st : Status} (h : s.captureChecks w = .error st) := row.trans (congrArg _ (takeCapture_of_error l h))
  have captured {r : RecordIndex} {stale : Bool} {g : GenRecord} (h : s.captureChecks w = .ok (r, stale))
    (hr : s.record r = some g) := row.trans (congrArg _ (takeCapture_of_ok l h hr))
  refine ⟨fun ha => refused (captureChecks_notAttached ha), fun ha hw => refused (captureChecks_outOfRange ha hw),
    fun k hk ha hw => ⟨fun e x d hx ho hd => ?_, fun hx => ⟨fun hs => ?_, fun d r hs => ?_⟩⟩⟩
  · have checks := captureChecks_leased ha hk hw hx ho hd
    exact ⟨fun hn => refused (checks.trans (if_neg (Bool.eq_false_iff.1 hn))),
      fun hy g hg => captured (checks.trans (if_pos hy)) hg⟩
  · exact refused (captureChecks_notLive ha hk hw hx hs)
  · have checks := captureChecks_live ha hk hw hx hs
    exact ⟨fun hn => refused (checks.trans (if_neg (Bool.eq_false_iff.1 hn))),
      fun hy ho => refused (checks.trans ((if_pos hy).trans (if_pos ho))),
      fun hy ho g hg => captured (checks.trans ((if_pos hy).trans (if_neg ho))) hg⟩

/-! ### The release claim (R29, R36 to R38) -/

theorem lookupResponse_batch {w : LaneWork} (hk : w.frame.kind = .lookupBatch) (n : GenNumber)
    (results : List LookupResult) :
    lookupResponse w n results = ⟨w.frame.kind, w.frame.tag, .ok,
      wordBytes n ++ [BitVec.ofNat 8 results.length]
        ++ results.flatMap (fun x => wordBytes x.value ++ [x.flags.code])⟩ :=
  if_pos hk

theorem lookupResponse_rejected {w : LaneWork} (hk : w.frame.kind = .lookup) (n : GenNumber) {x : LookupResult}
    (hx : x.flags.rejected = true) :
    lookupResponse w n [x] = ⟨w.frame.kind, w.frame.tag, .outOfRange, wordBytes n ++ [x.flags.code]⟩ := by
  simp [lookupResponse, hk, hx]

theorem lookupResponse_value {w : LaneWork} (hk : w.frame.kind = .lookup) (n : GenNumber) {x : LookupResult}
    (hx : x.flags.rejected = false) :
    lookupResponse w n [x] =
      ⟨w.frame.kind, w.frame.tag, .ok, wordBytes n ++ wordBytes x.value ++ [x.flags.code]⟩ := by
  simp [lookupResponse, hk, hx]

/-- The end of a lookup that no input of has been evaluated yet. -/
theorem takeRelease_eq {s : State} {w : LaneWork} {c : Capture} {g : GenRecord} {ps : List Point} (l : LaneIndex)
    (hc : c.results = []) (hr : s.record c.record = some g) (hp : g.points s.store = some ps) (h2 : 2 ≤ ps.length) :
    s.takeRelease l w c = .next (((s.dropReference c.record).deliverResponse w.port (lookupResponse w g.number
      (w.inputs.map (evaluateInput g.interpolation g.extrapolation c.stale ps)))).setLane l none) := by
  simp only [State.takeRelease, State.evaluateLane, hr, hp, if_neg h2.not_gt, State.completeLookup, State.numberOf, hc]
  rfl

/-- Settles O35: each kind and outcome has its own response. -/
theorem releaseClaimCompletesLookup : Obligations.ReleaseClaimCompletesLookup := by
  intro s l w c g ps hc hl hw hres hr hp h2 results completed
  have row : exec (.releaseClaim l) s = .next (((s.dropReference c.record).deliverResponse w.port
      (lookupResponse w g.number results)).setLane l none) := by
    rw [← takeRelease_eq l hres hr hp h2]
    show execReleaseClaim l s = _
    simp only [execReleaseClaim, hc, hl, hw]
  refine ⟨fun hk => ?_, fun x hk hx => ⟨fun hy => ?_, fun hn => ?_⟩⟩
  · rw [lookupResponse_batch hk] at row
    exact row
  · rw [hx, lookupResponse_rejected hk _ hy] at row
    exact row
  · rw [hx, lookupResponse_value hk _ hn] at row
    exact row

/-! ### A lookup carried out whole (log 22) -/

@[simp] theorem ofFrame_port (p : Port) (f : Frame) : (LaneWork.ofFrame p f).port = p := by
  unfold LaneWork.ofFrame
  split <;> rfl

@[simp] theorem ofFrame_frame (p : Port) (f : Frame) : (LaneWork.ofFrame p f).frame = f := by
  unfold LaneWork.ofFrame
  split <;> rfl

@[simp] theorem ofFrame_capture (p : Port) (f : Frame) : (LaneWork.ofFrame p f).capture = none := by
  unfold LaneWork.ofFrame
  split <;> rfl

theorem ofFrame_count_of_lookup (p : Port) {f : Frame} (hk : f.kind = .lookup) : (LaneWork.ofFrame p f).count = 1 := by
  simp [LaneWork.ofFrame, hk]

/-- A grant leaves alone all that the dispatch checks read. -/
theorem captureChecks_afterGrant (s : State) (l : LaneIndex) (p : Port) (f : Frame) (rest : List Frame) (w : LaneWork) :
    (s.afterGrant l p f rest).captureChecks w = s.captureChecks w := rfl

theorem isSuperseded_of_isCurrent {x : GenState} (h : x.isCurrent = true) : x.isSuperseded = false := by
  cases x with
  | current => rfl
  | building | pending | superseded => cases h

/-- A reference taken and dropped again leaves a record that keeps its state as it was (R9, R10). -/
theorem dropReference_of_raised {s : State} {r : RecordIndex} {g : GenRecord} (hr : s.record r = some g)
    (hg : g.state.isCurrent = true ∨ g.refCount ≠ 0) :
    (s.setRecord r (some { g with refCount := g.refCount + 1 })).dropReference r = s := by
  have keeps : (g.state.isSuperseded && g.refCount == 0) = false := by
    obtain hc | hn := hg
    · rw [isSuperseded_of_isCurrent hc, Bool.false_and]
    · simp [hn]
  have same : s.setRecord r (some g) = s := by rw [← hr, State.setRecord_record]
  simp [State.dropReference, keeps, same]

/-- A port written after its grant, with the lane given back. -/
theorem afterGrant_setPort_of_idle {s : State} {l : LaneIndex} (hl : s.lane l = none) (p : Port) (f : Frame)
    (rest : List Frame) (x : PortState) :
    ((s.afterGrant l p f rest).setPort p x).setLane l none = { s.setPort p x with lanePtr := p + 1 } := by
  have idle : s.lanes.set l none = s.lanes := congrArg State.lanes (hl ▸ State.setLane_lane s l)
  simp [State.afterGrant, State.setPort, State.setLane, idle]

/-- The response of a granted lookup, after which its lane is IDLE again, changes the port and the lane pointer alone. -/
theorem deliverResponse_afterGrant {s : State} {l : LaneIndex} {p : Port} (f : Frame) (rest : List Frame) (x : Response)
    (hl : s.lane l = none) (he : (s.port p).inExec = none) :
    ((s.afterGrant l p f rest).deliverResponse p x).setLane l none =
      { s.setPort p { s.port p with
          cmdQueue := rest, respQueue := (s.port p).respQueue ++ [x], attn := true } with lanePtr := p + 1 } := by
  have port : (s.afterGrant l p f rest).port p = { s.port p with cmdQueue := rest, inExec := some ⟨f, false⟩ } :=
    State.port_setPort_self ..
  have delivered : (s.afterGrant l p f rest).deliverResponse p x = (s.afterGrant l p f rest).setPort p { s.port p with
      cmdQueue := rest, respQueue := (s.port p).respQueue ++ [x], attn := true } := by
    have waiting : ((s.port p).respQueue ++ [x]).isEmpty = false := by simp
    simp [State.deliverResponse, State.updPort, port, PortState.reevaluate, PortState.wantsAttention, waiting, he]
  rw [delivered, afterGrant_setPort_of_idle hl]

/-- A capture and the release that follows it at once leave the response alone, on a record that keeps its state. -/
theorem takeRelease_takeCapture {s : State} {w : LaneWork} {r : RecordIndex} {stale : Bool} {g : GenRecord}
    {ps : List Point} (l : LaneIndex) (h : s.captureChecks w = .ok (r, stale)) (hr : s.record r = some g)
    (hg : g.state.isCurrent = true ∨ g.refCount ≠ 0) (hps : g.points s.store = some ps) (h2 : 2 ≤ ps.length) :
    (s.takeCapture l w).takeRelease l w ⟨r, stale, []⟩ =
      .next ((s.deliverResponse w.port (lookupResponse w g.number
        (w.inputs.map (evaluateInput g.interpolation g.extrapolation stale ps)))).setLane l none) := by
  rw [takeCapture_of_ok l h hr]
  refine (takeRelease_eq (g := { g with refCount := g.refCount + 1 }) l rfl ?record ?points h2).trans
    (congrArg Host.Outcome.next ?rest)
  case record => rw [State.record_setLane, State.record_setRecord_self]
  case points => exact hps
  case rest =>
    rw [← dropReference_setLane, dropReference_of_raised hr hg, deliverResponse_setLane, State.setLane_setLane,
      deliverResponse_setLane]

section
variable {s : State} {l : LaneIndex} {p : Port} {f : Frame} {rest : List Frame} {k : CommandKind}
  (hn : s.laneOf p k = none) (hp : s.laneChoice = some p) (hl : s.idleLane = some l)
  (hq : (s.port p).cmdQueue = f :: rest) (hk : f.kind = k)
include hn hp hl hq hk

/-- A lookup that no lane serves yet is granted first (R23). -/
theorem servingLane_granted : s.servingLane p k = some (l, s.afterGrant l p f rest) := by
  simp [State.servingLane, hn, hp, hq, hk, grantLane_eq hl hp hq]

theorem lookupCommand_refused (hc : s.takesClaims = true) {st : Status}
    (h : s.captureChecks (LaneWork.ofFrame p f) = .error st) :
    lookupCommand p k s =
      .next (((s.afterGrant l p f rest).deliverResponse p ⟨f.kind, f.tag, st, []⟩).setLane l none) := by
  have lane : (s.afterGrant l p f rest).lane l = some (LaneWork.ofFrame p f) := State.lane_setLane_self ..
  rw [← captureChecks_afterGrant s l p f rest] at h
  have refused := takeCapture_of_error l h
  simp [lookupCommand, hc, servingLane_granted hn hp hl hq hk, lane, refused]

theorem lookupCommand_captured (hc : s.takesClaims = true) {r : RecordIndex} {stale : Bool} {g : GenRecord}
    {ps : List Point} (h : s.captureChecks (LaneWork.ofFrame p f) = .ok (r, stale)) (hr : s.record r = some g)
    (hg : g.state.isCurrent = true ∨ g.refCount ≠ 0) (hps : g.points s.store = some ps) (h2 : 2 ≤ ps.length) :
    lookupCommand p k s = .next (((s.afterGrant l p f rest).deliverResponse p
      (lookupResponse (LaneWork.ofFrame p f) g.number ((LaneWork.ofFrame p f).inputs.map
        (evaluateInput g.interpolation g.extrapolation stale ps)))).setLane l none) := by
  have lane : (s.afterGrant l p f rest).lane l = some (LaneWork.ofFrame p f) := State.lane_setLane_self ..
  rw [← captureChecks_afterGrant s l p f rest] at h
  have record : (s.afterGrant l p f rest).record r = some g := hr
  have captured : ((s.afterGrant l p f rest).takeCapture l (LaneWork.ofFrame p f)).lane l =
      some { LaneWork.ofFrame p f with capture := some ⟨r, stale, []⟩ } := by
    rw [takeCapture_of_ok l h record, State.lane_setLane_self]
  have released := takeRelease_takeCapture l h record hg hps h2
  simp only [lookupCommand, hc, servingLane_granted hn hp hl hq hk, lane, ofFrame_capture, captured, Option.bind_some,
    released, ofFrame_port]

end

/-- A captured LOOKUP has one input (R26). -/
theorem exists_input_of_lookup {s : State} {p : Port} {f : Frame} {x : RecordIndex × Bool} (hk : f.kind = .lookup)
    (h : s.captureChecks (LaneWork.ofFrame p f) = .ok x) : ∃ v, (LaneWork.ofFrame p f).inputs = [v] := by
  have inRange := inRange_of_captureChecks h
  have one := ofFrame_count_of_lookup p hk
  unfold LaneWork.outOfRange at inRange
  exact List.length_eq_one_iff.1 (by omega)

/-- Settles O36: the grant, the reference taken and the lane are undone before the response. -/
theorem lookupsLeaveTablesAlone : Obligations.LookupsLeaveTablesAlone := by
  intro s p f rest l kind hkind hc hn hp hl hq hk w responds
  have idle : s.lane l = none := (idleLane_eq_some.1 hl).1
  obtain ⟨-, -, free, -⟩ := laneEligible_iff.1 (List.find?_some hp)
  have row : exec (if kind = .lookup then .lookup p else .lookupBatch p) s = lookupCommand p kind s := by
    obtain rfl | rfl := hkind <;> rfl
  refine ⟨fun st h => ?_, fun r stale g ps h hr hg hps h2 => ?_⟩
  · show exec _ s = _
    rw [row, lookupCommand_refused hn hp hl hq hk hc h, deliverResponse_afterGrant f rest _ idle free]
  · have whole := row.trans (lookupCommand_captured hn hp hl hq hk hc h hr hg hps h2)
    rw [deliverResponse_afterGrant f rest _ idle free] at whole
    intro results
    have frame : w.frame = f := ofFrame_frame p f
    refine ⟨fun hb => ?_, fun hb => ?_⟩
    · rw [lookupResponse_batch (by rw [frame, hk, hb]), frame] at whole
      exact whole
    · obtain ⟨v, hv⟩ := exists_input_of_lookup (hk.trans hb) h
      have single : results = [evaluateInput g.interpolation g.extrapolation stale ps v] := congrArg _ hv
      refine ⟨_, single, fun hy => ?_, fun hy => ?_⟩
      · rw [hv, List.map_singleton, lookupResponse_rejected (by rw [frame, hk, hb]) _ hy, frame] at whole
        exact whole
      · rw [hv, List.map_singleton, lookupResponse_value (by rw [frame, hk, hb]) _ hy, frame] at whole
        exact whole

end Sys2Proof.Machine
end

section
/-! The slot law (R48) and the fixed latch (R58) through every move, from the slot law alone: the records may be
anything. -/

namespace Sys2Proof.Machine

open State.poolLaw (Ready ready_clearProposal state_of_build)

/-- Where the slot law holds it is kept, and a slot with its latch set keeps its latch and its state, with the definition
and the reference to the CURRENT record. -/
structure KeepsSlots (s t : State) : Prop where
  law : s.slotLaw → t.slotLaw
  latched : s.slotLaw → ∀ k, (s.slot k).fixedLatch = true →
    (t.slot k).fixedLatch = true ∧ (t.slot k).state = (s.slot k).state

namespace KeepsSlots

variable {s t u : State}

/-- The slot law may be used to show that it is kept. -/
theorem of_law (h : s.slotLaw → KeepsSlots s t) : KeepsSlots s t :=
  ⟨fun law => (h law).law law, fun law => (h law).latched law⟩

theorem trans (h : KeepsSlots s t) (h' : KeepsSlots t u) : KeepsSlots s u where
  law law := h'.law (h.law law)
  latched law k hl := by
    obtain ⟨hl', hs⟩ := h.latched law k hl
    obtain ⟨hl'', hs'⟩ := h'.latched (h.law law) k hl'
    exact ⟨hl'', hs'.trans hs⟩

theorem of_sameTables (h : SameTables s t) : KeepsSlots s t where
  law := h.slotLaw
  latched _ k hl := by rw [h.slot]; exact ⟨hl, rfl⟩

theorem refl (s : State) : KeepsSlots s s := of_sameTables (.refl s)

/-- What touches neither slots nor contexts nor proposals. -/
theorem of_eq (hk : t.slots = s.slots) (hc : t.contexts = s.contexts) (hp : t.proposals = s.proposals) :
    KeepsSlots s t := by
  have slot (k) : t.slot k = s.slot k := by simp only [State.slot, hk]
  have context (b) : t.context b = s.context b := by simp only [State.context, hc]
  have proposal (e) : t.proposal e = s.proposal e := by simp only [State.proposal, hp]
  constructor
  · intro law
    constructor
    all_goals simp only [slot, context, proposal]
    · exact law.build
    · exact law.proposal
    · exact law.notBoth
    · exact law.vacant
    · exact law.retiring
    · exact law.latched
  · intro _ k hl
    rw [slot]
    exact ⟨hl, rfl⟩

/-- Where one slot without its latch is all that changes among the slots, the slot law is all that is asked. -/
theorem of_unlatched {k : SlotIndex} (hl : (s.slot k).fixedLatch = false) (hk : ∀ j, j ≠ k → t.slot j = s.slot j)
    (law : s.slotLaw → t.slotLaw) : KeepsSlots s t where
  law := law
  latched _ j hj := by
    have other : j ≠ k := by
      rintro rfl
      exact absurd (hl.symm.trans hj) (by decide)
    rw [hk j other]
    exact ⟨hj, rfl⟩

/-- A slot without latch and references gets a record without references. -/
theorem of_setSlot {k : SlotIndex} {x : SlotRecord} (hlt : (s.slot k).fixedLatch = false)
    (hnb : (s.slot k).build = none) (hnp : (s.slot k).proposal = none) (hb : x.build = none) (hp : x.proposal = none)
    (hv : x.state = .vacant → x = SlotRecord.vacant) (hl : x.fixedLatch = true → ∃ d r, x.state = .live d r) :
    KeepsSlots s (s.setSlot k x) :=
  of_unlatched hlt (fun _ => State.slot_setSlot_ne s x) fun law => law.setState hnb hnp hb hp hv hl

/-! ### Records -/

theorem of_setRecord (s : State) (r : RecordIndex) (x : Option GenRecord) : KeepsSlots s (s.setRecord r x) :=
  of_eq rfl rfl rfl

theorem of_setLease (s : State) (e : LeaseIndex) (x : Option Lease) : KeepsSlots s (s.setLease e x) := of_eq rfl rfl rfl

theorem of_setGenState (s : State) (r : RecordIndex) (x : GenState) : KeepsSlots s (s.setGenState r x) := by
  rw [setGenState_frame]
  exact of_eq rfl rfl rfl

/-- A record freed vacates no slot but a RETIRING one (R57). -/
theorem of_freeRecord (s : State) (r : RecordIndex) : KeepsSlots s (s.freeRecord r) := by
  have cleared (g : GenRecord) : KeepsSlots s ((s.returnBlocks g.blocks).setRecord r none) := by
    rw [returnBlocks_frame]
    exact of_eq rfl rfl rfl
  obtain ⟨-, h⟩ | ⟨g, -, h | ⟨-, hd, h⟩⟩ := freeRecord_cases s r <;> rw [h]
  · exact refl s
  · exact cleared g
  · obtain ⟨d, hd⟩ := isRetiring_iff.1 hd
    have slot : ((s.returnBlocks g.blocks).setRecord r none).slot g.slot = s.slot g.slot := by
      rw [returnBlocks_frame]; rfl
    refine of_law fun law => ?_
    obtain ⟨hnb, hnp, hlt⟩ := law.retiring _ d hd
    rw [← slot] at hnb hnp hlt
    exact (cleared g).trans (of_setSlot hlt hnb hnp rfl rfl (fun _ => rfl) nofun)

theorem of_dropReference (s : State) (r : RecordIndex) : KeepsSlots s (s.dropReference r) := by
  unfold State.dropReference
  split
  · exact refl s
  · dsimp only
    split
    · exact (of_setRecord ..).trans (of_freeRecord ..)
    · exact of_setRecord ..

theorem of_supersede (s : State) (r : RecordIndex) : KeepsSlots s (s.supersede r) := by
  unfold State.supersede
  split
  · exact refl s
  · dsimp only
    split
    · exact (of_setGenState ..).trans (of_freeRecord ..)
    · exact of_setGenState ..

theorem of_raiseReference (s : State) (r : RecordIndex) : KeepsSlots s (s.raiseReference r) := by
  unfold State.raiseReference
  split
  · exact refl s
  · exact of_setRecord ..

theorem of_restartIdle (s : State) (r : RecordIndex) : KeepsSlots s (s.restartIdle r) := by
  unfold State.restartIdle
  split
  · exact refl s
  · split
    · exact of_setRecord ..
    all_goals exact refl s

theorem of_removeLease (s : State) (e : LeaseIndex) : KeepsSlots s (s.removeLease e) := by
  unfold State.removeLease
  split
  · exact refl s
  · exact (of_setLease ..).trans (of_dropReference ..)

/-! ### Changes -/

/-- The adoption of a COMMIT sets the latch of no slot but one that it makes LIVE (R58, R91). -/
theorem of_adoptCommit {k : SlotIndex} (hk : Ready s k) (r : RecordIndex) : KeepsSlots s (s.adoptCommit k r) := by
  have live (x : GenState) (d : TableDef) (latch : Bool) : KeepsSlots s
      ((s.setGenState r x).setSlot k { s.slot k with state := .live d r, fixedLatch := latch }) := by
    have slot : (s.setGenState r x).slot k = s.slot k := by rw [setGenState_frame]; rfl
    refine (of_setGenState s r x).trans (of_setSlot ?_ ?_ ?_ hk.build hk.proposal nofun fun _ => ⟨d, r, rfl⟩)
    all_goals rw [slot]
    · exact hk.latch
    · exact hk.build
    · exact hk.proposal
  unfold State.adoptCommit
  dsimp only
  split
  · exact refl s
  · split
    · exact live ..
    · exact (live ..).trans (of_supersede ..)
    all_goals exact refl s

theorem of_adoptRetire {k : SlotIndex} (hk : Ready s k) : KeepsSlots s (s.adoptRetire k) := by
  unfold State.adoptRetire
  split
  · exact of_setSlot hk.latch hk.build hk.proposal rfl rfl (fun _ => rfl) nofun
  · have retiring (d : TableDef) : KeepsSlots s (s.setSlot k { s.slot k with state := .retiring d }) :=
      of_setSlot hk.latch hk.build hk.proposal hk.build hk.proposal nofun fun hl =>
        absurd (hk.latch.symm.trans hl) (by decide)
    exact (retiring _).trans (of_supersede ..)
  all_goals exact refl s

theorem of_adopt {k : SlotIndex} (hk : Ready s k) (c : Change) : KeepsSlots s (s.adopt k c) := by
  cases c with
  | commit r => exact of_adoptCommit hk r
  | retire => exact of_adoptRetire hk

/-- A change opened on a slot that is ready for it (R82). -/
theorem of_openChange {k : SlotIndex} (hk : Ready s k) (c : Change) (p : Port) (n : Session) :
    KeepsSlots s (s.openChange k c p n).1 := by
  unfold State.openChange
  dsimp only
  split
  · split
    · exact refl s
    · next e he =>
      obtain ⟨d, hs⟩ := hk.state
      have linked (q : Proposal) (hq : q.slot = k) :
          KeepsSlots s ((s.setProposal e (some q)).setSlot k { s.slot k with proposal := some e }) := by
        subst hq
        exact of_unlatched hk.latch (fun _ => State.slot_setSlot_ne _ _) fun law =>
          law.linkProposal (freeProposalIndex_eq_some.1 he).1 hs hk.latch hk.build hk.proposal
      dsimp only
      exact (linked _ rfl).trans (of_sameTables (.of_deliverWhere ..))
  · exact (of_adopt hk c).trans (of_sameTables (.of_announceChange ..))

theorem of_clearProposal {e : ProposalIndex} {q : Proposal} (hq : s.proposal e = some q) :
    KeepsSlots s (s.clearProposal e q.slot) := by
  refine of_law fun law => ?_
  have latch := law.latch_of_linked (k := q.slot) (.inr (by simp [law.proposal_of hq]))
  exact of_unlatched latch (fun _ => State.slot_setSlot_ne _ _) fun law => law.unlinkProposal hq

/-- A proposal resolves (R90): with its slot's reference cleared, the slot is ready for the change. -/
theorem of_resolve (s : State) (e : ProposalIndex) (o : ProposalOutcome) : KeepsSlots s (s.resolve e o) := by
  cases hq : s.proposal e with
  | none => rw [State.resolve, hq]; exact refl s
  | some q =>
    have cleared := of_clearProposal hq
    refine KeepsSlots.trans ?_ (of_sameTables (resolve_sameTables hq o))
    cases o with
    | adopted =>
      rw [State.applyOutcome, State.clearProposal_adopt]
      exact of_law fun law => cleared.trans (of_adopt (ready_clearProposal law hq) q.change)
    | pending => exact cleared
    | rejected | lapsed | withdrawn =>
      cases hc : q.change with
      | commit r =>
        rw [State.applyOutcome, State.clearProposal_freeRecord]
        exact cleared.trans (of_freeRecord ..)
      | retire => exact cleared

/-! ### Builds -/

theorem of_unlinkBuild {b : Handle} {c : BuildContext} (hc : s.context b = some c) :
    KeepsSlots s ((s.setContext b none).setSlot c.slot { s.slot c.slot with build := none }) := by
  refine of_law fun law => ?_
  have latch := law.latch_of_linked (k := c.slot) (.inl (by simp [law.build_of hc]))
  exact of_unlatched latch (fun _ => State.slot_setSlot_ne _ _) fun law => law.unlinkBuild hc

theorem of_discardBuild (s : State) (b : Handle) : KeepsSlots s (s.discardBuild b) := by
  unfold State.discardBuild
  split
  · exact refl s
  · next c hc =>
    have kept : (s.freeRecord c.record).context b = some c := by rw [freeRecord_frame]; exact hc
    exact (of_freeRecord ..).trans (of_unlinkBuild kept)


theorem of_finishBuild {b : Handle} {c : BuildContext} (hc : s.context b = some c) (g : GenRecord) (w : Word) :
    KeepsSlots s (s.finishBuild b c g w) := by
  unfold State.finishBuild
  dsimp only
  generalize ht : State.returnBlocks _ _ = t
  have trimmed : KeepsSlots s t := by
    rw [← ht, returnBlocks_frame]
    exact of_eq rfl rfl rfl
  have kept : t.context b = some c := by
    rw [← ht, returnBlocks_frame]
    exact hc
  exact trimmed.trans (of_unlinkBuild kept)

/-- The slot of a build is ready for the change once the build is finished (R70). -/
theorem ready_finishBuild (law : s.slotLaw) {b : Handle} {c : BuildContext} (hc : s.context b = some c) (g : GenRecord)
    (w : Word) : Ready (s.finishBuild b c g w) c.slot := by
  obtain ⟨state, latch, proposal⟩ := state_of_build law hc
  unfold State.finishBuild
  dsimp only
  rw [returnBlocks_frame]
  constructor
  all_goals rw [State.slot_setSlot_self]
  · exact state
  · exact latch
  · exact proposal

/-- A build is opened (R64). -/
theorem of_buildOpened {a : OpenArgs} {b : Handle} (hk : Ready s a.slot) (hf : s.context b = none) (p : Port)
    (n : Session) (r : RecordIndex) : KeepsSlots s (s.buildOpened p n a b r) := by
  obtain ⟨⟨d, hs⟩, latch, build, proposal⟩ := hk
  have introduced : KeepsSlots s ((s.reserve (blocksFor a.declared)).setRecord r (some (s.newBuild a))) :=
    of_eq rfl rfl rfl
  refine introduced.trans (of_unlatched (k := a.slot) latch (fun _ => State.slot_setSlot_ne _ _) fun law => ?_)
  exact law.linkBuild (c := { slot := a.slot, record := r, owner := p, session := n }) _ hf hs latch build proposal

end KeepsSlots

/-! ### Moves -/

theorem Move.keepsSlots {s t : State} (h : Move s t) : KeepsSlots s t := by
  cases h with
  | quiet h => exact .of_sameTables h
  | @define k d hv =>
    refine .of_law fun law => ?_
    have empty := law.vacant k hv
    exact .of_setSlot (by rw [empty]; rfl) (by rw [empty]; rfl) (by rw [empty]; rfl) rfl rfl nofun nofun
  | endLease e => exact .of_removeLease s e
  | endBuild b => exact .of_discardBuild s b
  | restart r => exact .of_restartIdle s r
  | append => exact .of_eq rfl rfl rfl
  | close w n hb =>
    exact .of_law fun law => (KeepsSlots.of_finishBuild hb _ w).trans
      (.of_openChange (KeepsSlots.ready_finishBuild law hb _ w) ..)
  | retire n hs hl hb hp => exact .of_openChange ⟨⟨_, hs⟩, hl, hb, hp⟩ ..
  | resolve e => exact .of_resolve s e _
  | hold => exact (KeepsSlots.of_setLease ..).trans (.of_raiseReference ..)
  | capture => exact (KeepsSlots.of_raiseReference ..).trans (.of_eq rfl rfl rfl)
  | release => exact (KeepsSlots.of_dropReference ..).trans (.of_eq rfl rfl rfl)

theorem Carries.keepsSlots {s t : State} (h : Carries s t) : KeepsSlots s t := by
  obtain h | ⟨u, hb, hs, hl, hnb, hnp, hf, -, -, -, -, ha⟩ := h
  · induction h with
    | refl => exact .refl s
    | tail _ hm ih => exact ih.trans hm.keepsSlots
  · have opened := KeepsSlots.of_buildOpened ⟨⟨_, hs⟩, hl, hnb, hnp⟩ hf
    exact ((KeepsSlots.of_sameTables hb).trans (opened ..)).trans
      (.of_sameTables ((openBuild_sameTables ..).trans ha))

/-! ### Resets and start-ups -/

theorem KeepsSlots.of_enterReset (s : State) (x : Phase) : KeepsSlots s (s.enterReset x) := by
  rw [enterReset_frame]
  exact .of_eq rfl rfl rfl

/-- A warm start-up clears the references and vacates the slots that were RETIRING (Table 42). -/
theorem KeepsSlots.of_warmStart (s : State) : KeepsSlots s s.warmStart := by
  have warm (k : SlotIndex) := slotRecord_warm_cases (s.slot k)
  constructor
  · intro law
    have latched := law.latched
    constructor
    all_goals simp only [warmStart_slot, warmStart_context, warmStart_proposal]
    · grind [SlotRecord.vacant]
    · grind [SlotRecord.vacant]
    · grind [SlotRecord.vacant]
    · grind [SlotRecord.vacant]
    · grind [SlotRecord.vacant]
    · grind [SlotRecord.vacant]
  · intro law k hl
    have latched := law.latched k hl
    rw [warmStart_slot]
    grind

/-- What a step does keeps the slots, but for a cold start-up. -/
theorem Advance.keepsSlots_or {s t : State} (h : Advance s t) :
    KeepsSlots s t ∨ (s.phase = .startUp .cold ∧ t = s.coldStart) := by
  cases h with
  | works he h => exact .inl h.keepsSlots
  | rests h hi => exact .inl (.of_sameTables h)
  | asserts =>
    exact .inl ((KeepsSlots.of_enterReset s (.inReset s.assertedKind)).trans (.of_eq rfl rfl rfl))
  | releases k h => exact .inl (.of_eq rfl rfl rfl)
  | powersOn x time h => exact .inl ((KeepsSlots.of_enterReset s x).trans (.of_eq rfl rfl rfl))
  | coldStarts h => exact .inr ⟨h, rfl⟩
  | warmStarts h => exact .inl (.of_warmStart s)

end Sys2Proof.Machine
end

section
/-! A part in reset or start-up runs again at the end of a start-up, and by no other row. -/

namespace Sys2Proof.Machine

/-- Every row of a control command carries out a body that comes to moves of the tables. -/
theorem controlRow_body {c : Instr} {p : Port} {k : CommandKind} (h : controlRow c = some (p, k)) :
    ∃ body, (∀ f t, (body f t).Carried t) ∧ ∀ s, exec c s = controlCommand p k body s := by
  cases c with
  | attach p => cases h; exact ⟨_, attachBody_carried p, fun _ => rfl⟩
  | detach p => cases h; exact ⟨_, detachBody_carried p, fun _ => rfl⟩
  | defineTable p => cases h; exact ⟨_, defineTableBody_carried p, fun _ => rfl⟩
  | tableInfo p => cases h; exact ⟨_, tableInfoBody_carried p, fun _ => rfl⟩
  | proposeRetire p => cases h; exact ⟨_, proposeRetireBody_carried p, fun _ => rfl⟩
  | storeInfo p => cases h; exact ⟨_, storeInfoBody_carried, fun _ => rfl⟩
  | openBuild p => cases h; exact ⟨_, openBuildBody_carried p, fun _ => rfl⟩
  | appendPoints p => cases h; exact ⟨_, appendPointsBody_carried p, fun _ => rfl⟩
  | closeBuild p => cases h; exact ⟨_, closeBuildBody_carried p, fun _ => rfl⟩
  | cancelBuild p => cases h; exact ⟨_, cancelBuildBody_carried p, fun _ => rfl⟩
  | approve p => cases h; exact ⟨_, approveBody_carried p, fun _ => rfl⟩
  | veto p => cases h; exact ⟨_, vetoBody_carried p, fun _ => rfl⟩
  | withdraw p => cases h; exact ⟨_, withdrawBody_carried p, fun _ => rfl⟩
  | hold p => cases h; exact ⟨_, holdBody_carried p, fun _ => rfl⟩
  | renew p => cases h; exact ⟨_, renewBody_carried p, fun _ => rfl⟩
  | release p => cases h; exact ⟨_, releaseBody_carried p, fun _ => rfl⟩
  | readPoints p => cases h; exact ⟨_, readPointsBody_carried p, fun _ => rfl⟩
  | readOptions p => cases h; exact ⟨_, readOptionsBody_carried, fun _ => rfl⟩
  | programOption p => cases h; exact ⟨_, programOptionBody_carried p, fun _ => rfl⟩
  | closeProvisioning p => cases h; exact ⟨_, closeProvisioningBody_carried p, fun _ => rfl⟩
  | lookup | lookupBatch | burnCompletion | laneGrant | captureClaim | releaseClaim | teardownRequest | pendingTeardown
  | buildIdleExpiry | proposalExpiry | leaseExpiry | post | fetch | refetch | drain | status | unknownTransactionKind
  | prstnAsserted | prstnReleased | rstnAsserted | rstnReleased | powerOn | coldStartUp | warmStartUp => cases h

/-- A row that completes leaves a part that does not run. -/
def StaysStopped : Host.Outcome State Fault Refusal → Prop
  | .next t => t.isRunning = false
  | .fault _ | .refused _ => True

theorem Carries.isRunning {s t : State} (h : Carries s t) : t.isRunning = s.isRunning := by
  obtain h | ⟨u, hb, -, -, -, -, -, -, -, -, -, ha⟩ := h
  · exact Moves.isRunning h
  · exact (((openBuild_sameTables ..).trans ha).isRunning).trans hb.isRunning

section
variable {s : State} (hs : s.isRunning = false)
include hs

theorem controlCommand_staysStopped {p : Port} {k : CommandKind} {body : Frame → State → CommandResult}
    (hb : ∀ f t, (body f t).Carried t) : StaysStopped (controlCommand p k body s) := by
  obtain ⟨-, h⟩ | ⟨f, t, hc, h⟩ := controlCommand_cases p k body s
  · rw [h]; exact hs
  · have stopped : t.isRunning = false := (claimCommand_sameTables hc).2.isRunning.trans hs
    have carried := hb f t
    obtain ⟨u, st, pl, hu, h⟩ | ⟨u, hu, h⟩ | ⟨e, hu, h⟩ := h <;> rw [h] <;> rw [hu] at carried
    · exact (SameTables.of_deliverResponse ..).isRunning.trans (carried.isRunning.trans stopped)
    · exact carried.isRunning.trans stopped
    · trivial

theorem takesClaims_of_stopped : s.takesClaims = false := by simp [State.takesClaims, hs]

theorem takesExpiries_of_stopped : s.takesExpiries = false := by
  simp [State.takesExpiries, takesClaims_of_stopped hs]

theorem takesTeardowns_of_stopped : s.takesTeardowns = false := by
  simp [State.takesTeardowns, takesExpiries_of_stopped hs]

theorem transaction_staysStopped (p : Port) (kind : Byte) (bytes : List Byte) (c : Clocking) :
    StaysStopped (transaction p kind bytes c s) := by
  obtain h | ⟨x, -, -, h⟩ := transaction_cases p kind bytes c s <;> rw [h] <;> exact hs

theorem execBurnCompletion_staysStopped : StaysStopped (execBurnCompletion s) := by
  unfold execBurnCompletion
  split
  · show (s.completeBurn _).isRunning = false
    unfold State.completeBurn
    dsimp only
    split
    · exact (SameTables.of_deliverResponse ..).isRunning.trans hs
    · exact hs
  · exact hs

theorem execPrstnAsserted_staysStopped (p : Port) (headPassed : Bool) :
    StaysStopped (execPrstnAsserted p headPassed s) := by
  unfold execPrstnAsserted
  split
  · exact hs
  · simp only [hs, Bool.false_and]
    exact hs

theorem execPrstnReleased_staysStopped (p : Port) : StaysStopped (execPrstnReleased p s) := by
  unfold execPrstnReleased
  repeat' split
  all_goals exact hs

theorem execRstnAsserted_staysStopped : StaysStopped (execRstnAsserted s) := by
  unfold execRstnAsserted
  split
  · exact hs
  · rfl

theorem execRstnReleased_staysStopped : StaysStopped (execRstnReleased s) := by
  unfold execRstnReleased
  repeat' split
  · exact hs
  · rfl
  · exact hs
  · exact hs

omit hs in
theorem execPowerOn_staysStopped (s : State) : StaysStopped (execPowerOn s) := by
  unfold execPowerOn
  dsimp only
  split <;> rfl

/-- But for the start-ups, every row that a stopped part carries out leaves it stopped. The claims that only a running
part takes change nothing (R134, log 2). -/
theorem exec_staysStopped {c : Instr} (hc : c ≠ .coldStartUp) (hw : c ≠ .warmStartUp) : StaysStopped (exec c s) := by
  have claims := takesClaims_of_stopped hs
  have expiries := takesExpiries_of_stopped hs
  have teardowns := takesTeardowns_of_stopped hs
  have unchanged {o : Host.Outcome State Fault Refusal} (h : o = .next s) : StaysStopped o := by rw [h]; exact hs
  have control {p : Port} {k : CommandKind} (h : controlRow c = some (p, k)) : StaysStopped (exec c s) := by
    obtain ⟨body, hb, he⟩ := controlRow_body h
    rw [he]
    exact controlCommand_staysStopped hs hb
  cases c with
  | lookup p | lookupBatch p => exact unchanged (by simp [exec, execLookup, execLookupBatch, lookupCommand, claims])
  | laneGrant => exact unchanged (by simp [exec, execLaneGrant, hs])
  | captureClaim i => exact unchanged (by simp [exec, execCaptureClaim, claims])
  | releaseClaim i => exact unchanged (by simp [exec, execReleaseClaim, claims])
  | teardownRequest p => exact unchanged (by simp [exec, execTeardownRequest, claims])
  | pendingTeardown p => exact unchanged (by simp [exec, execPendingTeardown, teardowns])
  | buildIdleExpiry b => exact unchanged (by simp only [exec, execBuildIdleExpiry, expiries]; split <;> rfl)
  | proposalExpiry e => exact unchanged (by simp only [exec, execProposalExpiry, expiries]; split <;> rfl)
  | leaseExpiry e => exact unchanged (by simp only [exec, execLeaseExpiry, expiries]; split <;> rfl)
  | burnCompletion => exact execBurnCompletion_staysStopped hs
  | post | fetch | refetch | drain | status => exact transaction_staysStopped hs ..
  | unknownTransactionKind p kind n x =>
    show StaysStopped (execUnknownTransactionKind p kind n x s)
    unfold execUnknownTransactionKind
    split
    · exact hs
    · exact transaction_staysStopped hs ..
  | prstnAsserted p b => exact execPrstnAsserted_staysStopped hs p b
  | prstnReleased p => exact execPrstnReleased_staysStopped hs p
  | rstnAsserted => exact execRstnAsserted_staysStopped hs
  | rstnReleased => exact execRstnReleased_staysStopped hs
  | powerOn => exact execPowerOn_staysStopped s
  | coldStartUp => exact absurd rfl hc
  | warmStartUp => exact absurd rfl hw
  | attach | detach | defineTable | tableInfo | proposeRetire | storeInfo | openBuild | appendPoints | closeBuild
  | cancelBuild | approve | veto | withdraw | hold | renew | release | readPoints | readOptions | programOption
  | closeProvisioning => exact control rfl

end

theorem coldStart_isRunning (s : State) : s.coldStart.isRunning = true := by
  unfold State.coldStart State.startCommon
  generalize s.loadOptions.eachPort _ = t
  rfl

/-- A part in a cold start-up runs after no step but the one of its own row (R178). -/
theorem step_staysStopped {s : State} (hp : s.phase = .startUp .cold)
    (hn : ∀ rest, s.pending ≠ .coldStartUp :: rest) : StaysStopped (step s) := by
  have stopped (rest : List Instr) : ({ s with pending := rest } : State).isRunning = false := by
    simp [State.isRunning, hp]
  unfold step
  split
  · show s.tick.isRunning = false
    simp only [State.tick, hp]
    rw [loadOptions_frame]
    exact stopped s.pending
  · next c rest hq =>
    by_cases hw : c = .warmStartUp
    · subst hw
      have early : exec .warmStartUp { s with pending := rest } = .next { s with pending := rest } := by
        simp only [exec, execWarmStartUp, hp]
      rw [early]
      exact stopped rest
    · exact exec_staysStopped (stopped rest) (fun hc => hn rest (hc ▸ hq)) hw

/-- Settles O56: what a step does keeps the slots, but for the cold start-up, which only its own row completes. -/
theorem slotLawAndFixedLatchKept : Obligations.SlotLawAndFixedLatchKept := by
  intro s t law h
  have dequeued : KeepsSlots s { s with pending := s.pending.tail } := .of_sameTables (.of_pending ..)
  obtain kept | ⟨hp, ht⟩ := (step_advances h).keepsSlots_or
  · have kept := dequeued.trans kept
    exact ⟨kept.law law, fun k hl _ => kept.latched law k hl⟩
  · refine ⟨ht ▸ (coldStart_generationLaw _).slots, fun k _ hn => ?_⟩
    have stopped := step_staysStopped (s := s) hp hn
    rw [h, ht] at stopped
    exact absurd ((coldStart_isRunning _).symm.trans stopped) (by decide)

end Sys2Proof.Machine
end

section
/-! DEFINE_TABLE, TABLE_INFO and PROPOSE_RETIRE: their checks in order, and what they answer (R49 to R53). -/

namespace Sys2Proof.Machine

/-! ### Port sets -/

theorem within_iff {m e : PortSet} :
    PortSet.within m e = true ↔ ∀ q : Port, m.getLsbD q.val = true → e.getLsbD q.val = true := by
  rw [PortSet.within, beq_iff_eq, BitVec.eq_of_getLsbD_eq_iff, Fin.forall_iff]
  refine forall_congr' fun i => forall_congr' fun hi => ?_
  show (m &&& ~~~e).getLsbD i = (0#4).getLsbD i ↔ (m.getLsbD i = true → e.getLsbD i = true)
  rw [BitVec.getLsbD_and, BitVec.getLsbD_not, decide_eq_true hi, Bool.true_and, BitVec.getLsbD_zero]
  cases m.getLsbD i <;> cases e.getLsbD i <;> decide

/-- The mask of the ports that satisfy a test. -/
theorem getLsbD_portsWhere (f : Port → Bool) (p : Port) : (portsWhere f).getLsbD p.val = f p := by
  have ports : ∀ b0 b1 b2 b3 : Bool, ∀ p : Port,
      (portsWhere ![b0, b1, b2, b3]).getLsbD p.val = ![b0, b1, b2, b3] p := by decide
  have listed : f = ![f 0, f 1, f 2, f 3] := by
    funext q
    match q with
    | 0 | 1 | 2 | 3 => rfl
  rw [listed]
  exact ports ..

theorem needsEntry_iff {m : PortSet} {p : Port} :
    needsEntry m p = true ↔ ∃ q : Port, m.getLsbD q.val = true ∧ q ≠ p := by
  simp [needsEntry, allPorts, PortSet.has]

/-! ### DEFINE_TABLE (R49) -/

theorem maskOf_eq_some {b : Byte} {m : PortSet} : maskOf b = some m ↔ b.toNat < 16 ∧ m = b.setWidth 4 := by
  unfold maskOf
  split <;> simp_all [eq_comm]

theorem defineArgs_eq_some {kb r b a : Byte} {x : DefineArgs} : defineArgs [kb, r, b, a] = some x ↔
    slotOf kb = some x.slot ∧ maskOf r = some x.readers ∧ maskOf b = some x.builders ∧ maskOf a = some x.approvers := by
  obtain ⟨k, readers, builders, approvers⟩ := x
  unfold defineArgs
  dsimp only
  split <;> simp_all

/-- A mask in range is allowed where it lies within the mask of the enabled ports. -/
theorem allowedMask_iff {s : State} {b : Byte} {m : PortSet} (h : maskOf b = some m) :
    s.allowedMask b ↔ PortSet.within m s.inUse.portEnable = true := by
  obtain ⟨range, rfl⟩ := maskOf_eq_some.1 h
  rw [State.allowedMask, within_iff, and_iff_right range]
  refine forall_congr' fun q => ?_
  rw [BitVec.getLsbD_setWidth, decide_eq_true q.isLt, Bool.true_and]
  rfl

theorem mask_eq_zero_iff {b : Byte} {m : PortSet} (h : maskOf b = some m) : m = 0 ↔ b = 0 := by
  obtain ⟨range, rfl⟩ := maskOf_eq_some.1 h
  constructor
  · intro h0
    bv_omega
  · rintro rfl
    rfl

/-- A field of DEFINE_TABLE that R49 step 2 refuses. -/
def State.badDefinition (s : State) (kb r b a : Byte) : Prop :=
  63 < kb.toNat ∨ b = 0 ∨ ¬s.allowedMask r ∨ ¬s.allowedMask b ∨ ¬s.allowedMask a

/-- The range check of DEFINE_TABLE on fields that are each in their own range. -/
theorem badDefinition_iff {s : State} {kb r b a : Byte} {x : DefineArgs} (h : defineArgs [kb, r, b, a] = some x) :
    s.badDefinition kb r b a ↔ x.builders = 0 ∨ ¬(PortSet.within x.readers s.inUse.portEnable
      ∧ PortSet.within x.builders s.inUse.portEnable ∧ PortSet.within x.approvers s.inUse.portEnable) := by
  obtain ⟨slot, readers, builders, approvers⟩ := defineArgs_eq_some.1 h
  have inRange : ¬63 < kb.toNat := by
    rw [slotOf_eq_some.1 slot]
    omega
  rw [State.badDefinition, allowedMask_iff readers, allowedMask_iff builders, allowedMask_iff approvers,
    mask_eq_zero_iff builders]
  tauto

theorem defineArgs_of_good {s : State} {kb r b a : Byte} {k : SlotIndex} (hk : k.val = kb.toNat)
    (h : ¬s.badDefinition kb r b a) :
    defineArgs [kb, r, b, a] = some ⟨k, r.setWidth 4, b.setWidth 4, a.setWidth 4⟩ := by
  simp only [State.badDefinition, not_or, not_not] at h
  obtain ⟨-, -, ⟨readers, -⟩, ⟨builders, -⟩, ⟨approvers, -⟩⟩ := h
  exact defineArgs_eq_some.2 ⟨slotOf_eq_some.2 hk.symm, maskOf_eq_some.2 ⟨readers, rfl⟩,
    maskOf_eq_some.2 ⟨builders, rfl⟩, maskOf_eq_some.2 ⟨approvers, rfl⟩⟩

section
variable {t : State} {p : Port} {f : Frame} {kb r b a : Byte} (hf : f.payload = [kb, r, b, a])
include hf

theorem defineTableBody_badDefinition (ha : t.isAttached p = true) (hb : t.badDefinition kb r b a) :
    defineTableBody p f t = refuse t .badArgument := by
  cases hx : defineArgs f.payload with
  | none => exact defineTableBody_badArgument ha hx
  | some x =>
    have check := (badDefinition_iff (hf ▸ hx)).1 hb
    simp only [defineTableBody, ha, hx, if_pos check]
    rfl

/-- The checks of DEFINE_TABLE behind its arguments, and its effect (R49, R50). -/
theorem defineTableBody_good {k : SlotIndex} (hk : k.val = kb.toNat) (ha : t.isAttached p = true)
    (hb : ¬t.badDefinition kb r b a) : defineTableBody p f t =
      if (t.slot k).state ≠ .vacant then refuse t .slotState
      else if !PortSet.has t.inUse.definer p then refuse t .noAccess
      else .answer (t.setSlot k
        { state := .defined ⟨r.setWidth 4, b.setWidth 4, a.setWidth 4, p⟩, nextNumber := 1, build := none,
          proposal := none, fixedLatch := false }) .ok [kb] := by
  have args := defineArgs_of_good hk hb
  have check := fun h => hb ((badDefinition_iff args).2 h)
  have echoed : slotByte k = kb := by rw [slotByte, hk, BitVec.ofNat_toNat, BitVec.setWidth_eq]
  simp only [defineTableBody, ha, hf, args, if_neg check, echoed]
  rfl

end

/-- Settles O13: the range check covers all four fields, and then the slot and the definers decide. -/
theorem defineTableChecksAndEffect : Obligations.DefineTableChecksAndEffect := by
  intro s t p f kb r b a h hf bad
  have attached : t.isAttached p = s.isAttached p := isAttached_of_claimCommand h p
  have inUse : t.inUse = s.inUse := by rw [claimCommand_frame h]; rfl
  have sameBad : t.badDefinition kb r b a ↔ bad := by
    simp only [State.badDefinition, State.allowedMask, State.isEnabled, inUse, bad]
  refine ⟨fun hn => ?_, fun ha hb => ?_, fun k hk ha hg => ?_⟩
  · exact controlCommand_answer h (by simp [defineTableBody, attached, hn, refuse])
  · exact controlCommand_answer h (defineTableBody_badDefinition hf (attached.trans ha) (sameBad.2 hb))
  · have checks := defineTableBody_good hf hk (attached.trans ha) (fun hb => hg (sameBad.1 hb))
    rw [inUse, show t.slot k = s.slot k by rw [claimCommand_frame h]; rfl] at checks
    refine ⟨fun hs => ?_, fun hv (hd : PortSet.has s.inUse.definer p = false) => ?_,
      fun hv (hd : PortSet.has s.inUse.definer p = true) => ?_⟩
    · exact controlCommand_answer h (checks.trans (if_pos hs))
    · exact controlCommand_answer h (checks.trans ((if_neg (not_not.2 hv)).trans (if_pos (by simp [hd]))))
    · exact controlCommand_answer h (checks.trans ((if_neg (not_not.2 hv)).trans (if_neg (by simp [hd]))))

/-! ### TABLE_INFO (R51) -/

theorem slotArg_eq_some {kb : Byte} {k : SlotIndex} (hk : k.val = kb.toNat) : slotArg [kb] = some k :=
  slotOf_eq_some.2 hk.symm

theorem tableReport_of_claimCommand {s t : State} {p : Port} {k : CommandKind} {f : Frame}
    (h : s.claimCommand p k = some (f, t)) (q : Port) (x : SlotIndex) : t.tableReport q x = s.tableReport q x := by
  rw [claimCommand_frame h]
  rfl

/-- The ports with a recorded approval, as the report has them (R186). -/
theorem approvalMask (q : Proposal) : ∃ ports : Byte, maskByte (portsWhere q.hasApproval) = ports ∧ ports.toNat < 16
    ∧ ∀ x : Port, ports.getLsbD x.val = (q.approvals[x]).isSome := by
  refine ⟨_, rfl, ?_, fun x => ?_⟩
  · rw [maskByte, BitVec.toNat_setWidth]
    omega
  · rw [maskByte, BitVec.getLsbD_setWidth, decide_eq_true (by omega), Bool.true_and, getLsbD_portsWhere]
    rfl

theorem flagByte_isSome {α : Type} (x : Option α) [Decidable (x = none)] :
    flagByte x.isSome = if x = none then 0 else 1 := by
  cases x <;> simp [flagByte]

theorem changeCode_isRetire (c : Change) : changeCode c.isRetire = if c = .retire then 2 else 1 := by
  cases c <;> rfl

/-- Settles O14: each item of the report has its own cases. -/
theorem tableInfoReportsSlot : Obligations.TableInfoReportsSlot := by
  intro s t p f kb k h hf
  have attached : t.isAttached p = s.isAttached p := isAttached_of_claimCommand h p
  refine ⟨fun hn => ?_, fun ha hb => ?_, fun ha hk => ?_⟩
  · exact controlCommand_answer h (by simp [tableInfoBody, attached, hn, refuse])
  · exact slot_out_of_range ha hf rfl h (by decide) hb
  · have reports : answers (.tableInfo p) s p f t .ok (s.tableReport p k) := by
      rw [← tableReport_of_claimCommand h]
      refine controlCommand_answer (body := tableInfoBody p) h ?_
      simp only [tableInfoBody, attached, ha, hf, slotArg_eq_some hk]
      rfl
    refine ⟨[(s.slot k).state.code] ++ definitionItems (s.slot k) ++ s.currentItems (s.slot k),
      s.proposalItems (s.slot k), s.leaseItems p k, ?_, fun hs => ?_, fun d hs => ?_, fun d hs => ?_,
      fun d r g hs hr => ?_, fun hq => ?_, fun e q he hq => ?_, fun hl => ?_, fun i l hl => ?_⟩
    · rw [← flagByte_isSome]
      exact reports
    · simp only [definitionItems, State.currentItems, hs]
      rfl
    · simp only [definitionItems, State.currentItems, hs]
      rfl
    · simp only [definitionItems, State.currentItems, hs]
      rfl
    · simp only [definitionItems, State.currentItems, hs, SlotState.current, Option.bind_some, hr]
      rfl
    · simp only [State.proposalItems, hq]
      rfl
    · obtain ⟨ports, hm, range, bits⟩ := approvalMask q
      refine ⟨ports, ?_, range, bits⟩
      simp only [State.proposalItems, he, Option.bind_some, hq, hm, changeCode_isRetire]
    · simp only [State.leaseItems, hl]
    · simp only [State.leaseItems, hl]

/-! ### PROPOSE_RETIRE (R52) -/

/-- What the opening of a change answers (R82). -/
theorem openChange_outcome (s : State) (k : SlotIndex) (c : Change) (p : Port) (n : Session) :
    (s.openChange k c p n).2 = if needsEntry (s.maskOf k (·.approvers)) p then .pending else .adopted := by
  unfold State.openChange
  dsimp only
  split
  · split <;> rfl
  · rfl

section
variable {t : State} {p : Port} {f : Frame} {k : SlotIndex} {n : Session} (hn : t.currentSession p = some n)
  (hk : slotArg f.payload = some k)
include hn hk

theorem proposeRetireBody_slotState
    (hs : (t.slot k).state.definition = none ∨ ∃ d, (t.slot k).state = .retiring d) :
    proposeRetireBody p f t = refuse t .slotState := by
  simp only [proposeRetireBody, hn, hk]
  obtain hs | ⟨d, hs⟩ := hs
  · cases hv : (t.slot k).state with
    | vacant => rfl
    | defined d | live d r | retiring d => simp [hv, SlotState.definition] at hs
  · rw [hs]

/-- The checks of PROPOSE_RETIRE behind the state of the slot, and the opening (R52, R53). -/
theorem proposeRetireBody_of_definition {d : TableDef}
    (hs : (t.slot k).state = .defined d ∨ ∃ r, (t.slot k).state = .live d r) : proposeRetireBody p f t =
      if !PortSet.has d.builders p then refuse t .noAccess
      else if (t.slot k).fixedLatch then refuse t .slotFixed
      else if (t.slot k).build.isSome then refuse t .buildOpen
      else if (t.slot k).proposal.isSome then refuse t .proposalOpen
      else if needsEntry d.approvers p && t.freeProposalIndex.isNone then refuse t .proposalFull
      else .answer (t.openChange k .retire p n).1 .ok
        [(if needsEntry d.approvers p then ProposalOutcome.pending else .adopted).code] := by
  have definition : (t.slot k).state.definition = some d := by obtain hs | ⟨r, hs⟩ := hs <;> rw [hs] <;> rfl
  have outcome := openChange_outcome t k .retire p n
  rw [maskOf_of_definition definition] at outcome
  rw [← outcome]
  simp only [proposeRetireBody, hn, hk]
  obtain hs | ⟨r, hs⟩ := hs <;> simp only [hs]

end

/-- Settles O15: past the state of the slot the checks stand in a row, and the outcome says which opening it was. -/
theorem proposeRetireChecksAndEffect : Obligations.ProposeRetireChecksAndEffect := by
  intro s t p f kb h hf
  have attached : t.isAttached p = s.isAttached p := isAttached_of_claimCommand h p
  refine ⟨fun hn => ?_, fun ha hb => slot_out_of_range ha hf rfl h (by decide) hb, fun k n hk hn => ⟨fun hs => ?_, ?_⟩⟩
  · have detached : t.currentSession p = none := by simpa [State.isAttached] using attached.trans hn
    exact controlCommand_answer (body := proposeRetireBody p) h (by simp only [proposeRetireBody, detached]; rfl)
  all_goals
    have session : t.currentSession p = some n := by
      rw [claimCommand_frame h]
      exact currentSession_eq_some.2 hn
    have arg : slotArg f.payload = some k := hf ▸ slotArg_eq_some hk
    have slot : t.slot k = s.slot k := by rw [claimCommand_frame h]; rfl
  · exact controlCommand_answer h (proposeRetireBody_slotState session arg (slot ▸ hs))
  · intro d hs needs full
    have free : t.freeProposalIndex = none ↔ full := by
      rw [freeProposalIndex_eq_none, claimCommand_frame h]
      rfl
    have needed : needsEntry d.approvers p = true ↔ needs := needsEntry_iff
    have checks := proposeRetireBody_of_definition session arg (slot ▸ hs)
    rw [slot] at checks
    have answered {u : State} {st : Status} {pl : List Byte} (hb : proposeRetireBody p f t = .answer u st pl) :
        answers (.proposeRetire p) s p f u st pl := controlCommand_answer h hb
    refine ⟨fun (hd : PortSet.has d.builders p = false) => answered ?_,
      fun (hd : PortSet.has d.builders p = true) hl => answered ?_,
      fun (hd : PortSet.has d.builders p = true) hl => ⟨fun hb => answered ?_, fun hb => ⟨fun hq => answered ?_,
        fun hq hw hfull => answered ?_, fun hq hw hfree => answered ?_, fun hq hw => answered ?_⟩⟩⟩
    all_goals rw [checks]
    · simp [hd, refuse]
    · simp [hd, hl, refuse]
    · simp [hd, hl, Option.isSome_iff_ne_none, hb, refuse]
    · simp [hd, hl, hb, Option.isSome_iff_ne_none, hq, refuse]
    · simp [hd, hl, hb, hq, needed.2 hw, free.2 hfull, refuse]
    · simp [hd, hl, hb, hq, needed.2 hw, mt free.1 hfree, ProposalOutcome.code]
    · simp [hd, hl, hb, hq, mt needed.1 hw, ProposalOutcome.code]

end Sys2Proof.Machine
end

section
/-! The adoption of a change: the slot and the records after it (R54, R55, R57, R58, R91, R92). -/

namespace Sys2Proof.Machine

/-! ### A CURRENT record superseded (R10) -/

/-- The state with a record of these blocks freed, before its slot is looked at (R6, R8). -/
def State.freed (s : State) (r : RecordIndex) (blocks : List BlockIndex) : State :=
  { s.setRecord r none with
    freeList := s.freeList ++ blocks
    storeLowArmed := s.storeLowArmed || decide (64 ≤ (s.freeList ++ blocks).length) }

section
variable {s : State} {r : RecordIndex} {g : GenRecord} {c : Word} (hr : s.record r = some g)
  (hg : g.state = .current c)
include hr hg

theorem supersede_of_referenced (hn : g.refCount ≠ 0) :
    s.supersede r = s.setRecord r (some { g with state := .superseded c }) := by
  simp [State.supersede, hr, hn, setGenState_of_some hr, hg, GenState.checksum]

/-- A CURRENT record without references is freed, and vacates its slot where that is RETIRING and the record was the
last one (R10, R57). -/
theorem supersede_of_unreferenced (hn : g.refCount = 0) (hb : g.blocks ≠ []) :
    (((∃ d, (s.slot g.slot).state = .retiring d) ∧ s.lastOfSlot r g) →
      s.supersede r = (s.freed r g.blocks).setSlot g.slot SlotRecord.vacant)
    ∧ (¬((∃ d, (s.slot g.slot).state = .retiring d) ∧ s.lastOfSlot r g) → s.supersede r = s.freed r g.blocks) := by
  have superseded := State.record_setRecord_self s r (some { g with state := .superseded c })
  have last : (s.setRecord r (some { g with state := .superseded c })).lastOfSlot r { g with state := .superseded c }
      ↔ s.lastOfSlot r g :=
    forall_congr' fun r' => forall_congr' fun g' => forall_congr' fun hne => by
      rw [State.record_setRecord_ne _ _ hne]
  have freeing : s.supersede r = (s.setRecord r (some { g with state := .superseded c })).freeRecord r := by
    simp [State.supersede, hr, hn, setGenState_of_some hr, hg, GenState.checksum]
  have freed : ((s.setRecord r (some { g with state := .superseded c })).returnBlocks g.blocks).setRecord r none
      = s.freed r g.blocks := by
    rw [returnBlocks_of_ne_nil _ hb]
    simp [State.setRecord, State.freed]
  obtain ⟨vacated, kept⟩ := freeRecord_eq superseded
  rw [freeing]
  rw [freed] at vacated kept
  exact ⟨fun ⟨hd, hl⟩ => vacated ⟨rfl, hd, last.2 hl⟩, fun h => kept fun ⟨_, hd, hl⟩ => h ⟨hd, last.1 hl⟩⟩

end

/-! ### The adoption -/

/-- The record that a COMMIT makes CURRENT, and its slot with it (R54, R58). -/
def State.madeCurrent (s : State) (k : SlotIndex) (d : TableDef) (r : RecordIndex) (g : GenRecord) (c : Word) : State :=
  (s.setRecord r (some { g with state := .current c })).setSlot k { s.slot k with
    state := .live d r, fixedLatch := (s.slot k).fixedLatch || decide (k.val < s.inUse.fixedSlots) }

section
variable {s : State} {k : SlotIndex} {d : TableDef}

theorem adopt_commit_of_defined {r : RecordIndex} {g : GenRecord} {c : Word} (hr : s.record r = some g)
    (hg : g.state = .pending c) (hk : (s.slot k).state = .defined d) :
    s.adopt k (.commit r) = s.madeCurrent k d r g c := by
  simp only [State.adopt, State.adoptCommit, hr, hk, setGenState_of_some hr, hg]
  rfl

theorem adopt_commit_of_live {r old : RecordIndex} {g : GenRecord} {c : Word} (hr : s.record r = some g)
    (hg : g.state = .pending c) (hk : (s.slot k).state = .live d old) :
    s.adopt k (.commit r) = (s.madeCurrent k d r g c).supersede old := by
  simp only [State.adopt, State.adoptCommit, hr, hk, setGenState_of_some hr, hg]
  rfl

theorem adopt_retire_of_defined (hk : (s.slot k).state = .defined d) :
    s.adopt k .retire = s.setSlot k SlotRecord.vacant := by
  simp only [State.adopt, State.adoptRetire, hk]

theorem adopt_retire_of_live {r : RecordIndex} (hk : (s.slot k).state = .live d r) :
    s.adopt k .retire = (s.setSlot k { s.slot k with state := .retiring d }).supersede r := by
  simp only [State.adopt, State.adoptRetire, hk]

end

/-- Settles O26: each adoption comes to the superseding of one record, in a slot that is LIVE or RETIRING by then. -/
theorem adoptionChangesSlotAndRecords : Obligations.AdoptionChangesSlotAndRecords := by
  intro s k d
  refine ⟨?_, adopt_retire_of_defined, ?_⟩
  · intro r g c hr hg slot' adopted
    refine ⟨adopt_commit_of_defined hr hg, fun old g' c' hk hne ho hc hslot hb => ?_⟩
    have adoption : s.adopt k (.commit r) = adopted.supersede old := adopt_commit_of_live hr hg hk
    have other : adopted.record old = some g' := (State.record_setRecord_ne s _ hne).trans ho
    have live : (adopted.slot g'.slot).state = .live d r := by rw [hslot, State.slot_setSlot_self]
    rw [adoption]
    exact ⟨supersede_of_referenced other hc, fun hn =>
      (supersede_of_unreferenced other hc hn hb).2 fun ⟨⟨d', hd⟩, _⟩ => nomatch live.symm.trans hd⟩
  · intro r g c hk hr hg hslot hb retiring
    have adoption : s.adopt k .retire = retiring.supersede r := adopt_retire_of_live hk
    have same : retiring.record r = some g := hr
    have slot : (retiring.slot g.slot).state = .retiring d := by rw [hslot, State.slot_setSlot_self]
    rw [adoption]
    refine ⟨supersede_of_referenced same hg, fun hn => ?_⟩
    obtain ⟨vacated, kept⟩ := supersede_of_unreferenced same hg hn hb
    refine ⟨fun hl => ?_, fun ⟨r', g', hne, hr', hs⟩ => kept fun ⟨_, hl⟩ => hl r' g' hne hr' (hs.trans hslot.symm)⟩
    have last : retiring.lastOfSlot r g := fun r' g' hne hr' => hslot ▸ hl r' g' hne hr'
    rw [vacated ⟨⟨d, slot⟩, last⟩, hslot]
    rfl

end Sys2Proof.Machine
end

section
/-! Building a generation: the fields and the handle check of the build commands, the ends of a build, and OPEN_BUILD,
APPEND_POINTS, CLOSE_BUILD and CANCEL_BUILD with their checks in order (R62 to R74). -/

namespace Sys2Proof.Machine

/-! ### The state in which a command is carried out -/

/-! The taking of a control command changes no table, so that what reads the tables reads alike. -/

section
variable {s t : State} {p : Port} {k : CommandKind} {f : Frame} (h : s.claimCommand p k = some (f, t))
include h

theorem slot_of_claimCommand (x : SlotIndex) : t.slot x = s.slot x := by rw [claimCommand_frame h]; rfl
theorem record_of_claimCommand (r : RecordIndex) : t.record r = s.record r := by rw [claimCommand_frame h]; rfl
theorem context_of_claimCommand (x : Handle) : t.context x = s.context x := by rw [claimCommand_frame h]; rfl
theorem currentSession_of_claimCommand (q : Port) : t.currentSession q = s.currentSession q := by
  rw [claimCommand_frame h]; rfl
theorem buildOf_of_claimCommand (q : Port) (x : Handle) : t.buildOf q x = s.buildOf q x := by
  rw [claimCommand_frame h]; rfl
theorem store_of_claimCommand : t.store = s.store := by rw [claimCommand_frame h]
theorem freeList_of_claimCommand : t.freeList = s.freeList := by rw [claimCommand_frame h]
theorem storeLowArmed_of_claimCommand : t.storeLowArmed = s.storeLowArmed := by rw [claimCommand_frame h]
theorem time_of_claimCommand : t.time = s.time := by rw [claimCommand_frame h]
theorem inUse_of_claimCommand : t.inUse = s.inUse := by rw [claimCommand_frame h]; rfl
theorem freeHandle_of_claimCommand : t.freeHandle = s.freeHandle := by rw [claimCommand_frame h]; rfl
theorem freeRecordIndex_of_claimCommand : t.freeRecordIndex = s.freeRecordIndex := by rw [claimCommand_frame h]; rfl
theorem freeProposalIndex_of_claimCommand : t.freeProposalIndex = s.freeProposalIndex := by
  rw [claimCommand_frame h]; rfl

end

theorem numberOf_of_some {s : State} {r : RecordIndex} {g : GenRecord} (hr : s.record r = some g) :
    s.numberOf r = g.number := by
  simp only [State.numberOf, hr]

/-! ### Fields in range (Table 95) -/

theorem slotOf_ofNat (k : SlotIndex) : slotOf (BitVec.ofNat 8 k.val) = some k :=
  slotOf_eq_some.2 ((BitVec.toNat_ofNat ..).trans (Nat.mod_eq_of_lt (by omega)))

theorem handleOf_ofNat (h : Handle) : handleOf (BitVec.ofNat 8 h.val) = some h :=
  handleOf_eq_some.2 ((BitVec.toNat_ofNat ..).trans (Nat.mod_eq_of_lt (by omega)))

theorem declaredOf_ofNat {n : Nat} (h2 : 2 ≤ n) (hm : n ≤ 1024) : declaredOf (BitVec.ofNat 16 n) = some n := by
  have value : (BitVec.ofNat 16 n).toNat = n := (BitVec.toNat_ofNat ..).trans (Nat.mod_eq_of_lt (by omega))
  rw [declaredOf, value]
  exact if_pos ⟨h2, hm⟩

theorem interpolationOf_code (m : Interpolation) : interpolationOf m.code = some m := by cases m <;> rfl

theorem extrapolationOf_code (m : Extrapolation) : extrapolationOf m.code = some m := by cases m <;> rfl

theorem openArgs_inRange (k : SlotIndex) {declared : Nat} (im : Interpolation) (em : Extrapolation) (h2 : 2 ≤ declared)
    (hm : declared ≤ 1024) : openArgs ([BitVec.ofNat 8 k.val] ++ countBytes declared ++ [im.code, em.code])
      = some ⟨k, declared, im, em⟩ := by
  simp only [countBytes, wordBytes, List.cons_append, List.nil_append, openArgs, wordOf_highByte_lowByte, slotOf_ofNat,
    declaredOf_ofNat h2 hm, interpolationOf_code, extrapolationOf_code]

theorem appendArgs_inRange (h : Handle) {points : List Point} (h1 : 1 ≤ points.length) (h8 : points.length ≤ 8) :
    appendArgs ([BitVec.ofNat 8 h.val, BitVec.ofNat 8 points.length] ++ points.flatMap Point.bytes)
      = some (h, points) := by
  have count : (BitVec.ofNat 8 points.length).toNat = points.length :=
    (BitVec.toNat_ofNat ..).trans (Nat.mod_eq_of_lt (by omega))
  simp only [List.cons_append, List.nil_append, appendArgs, handleOf_ofNat, pointsOf_flatMap_bytes, count]
  exact if_pos ⟨h1, h8, trivial⟩

theorem closeArgs_inRange (h : Handle) (expected : Word) :
    closeArgs ([BitVec.ofNat 8 h.val] ++ wordBytes expected) = some (h, expected) := by
  simp only [wordBytes, List.cons_append, List.nil_append, closeArgs, handleOf_ofNat, wordOf_highByte_lowByte,
    Option.map_some]

theorem handleArg_inRange (h : Handle) : handleArg [BitVec.ofNat 8 h.val] = some h := handleOf_ofNat h

/-! ### The handle check (R62) -/

section
variable {s : State} {p : Port} {n : Session} {h : Handle} (hn : (s.session p).state = .attached n)
include hn

theorem buildOf_of_owner {b : BuildContext} (hc : s.context h = some b) (ho : b.owner = p) (hs : b.session = n) :
    s.buildOf p h = some b :=
  Option.filter_eq_some_iff.2 ⟨hc, by rw [isUnder_iff.2 (hs ▸ hn), Bool.and_true, beq_iff_eq, ho]⟩

theorem buildOf_eq_none (hb : ∀ b, s.context h = some b → b.owner ≠ p ∨ b.session ≠ n) : s.buildOf p h = none := by
  refine Option.eq_none_iff_forall_ne_some.2 fun b hf => ?_
  obtain ⟨hc, ho, hu⟩ := buildOf_eq_some hf
  obtain hne | hne := hb b hc
  · exact hne ho
  · exact hne (SessionState.attached.inj ((isUnder_iff.1 hu).symm.trans hn))

end

/-! ### The idle deadline, and the ends of a build -/

section
variable {s : State} {h : Handle} {b : BuildContext} {r : RecordIndex} {g : GenRecord} {declared : Nat} {dl : Time}

theorem restartIdle_of_building (hr : s.record r = some g) (hg : g.state = .building declared dl) :
    s.restartIdle r = s.setRecord r (some { g with state := .building declared (s.time + s.inUse.buildIdle) }) := by
  simp only [State.restartIdle, hr, hg]

/-- A build discarded (R63): no slot becomes VACANT by it, since its record is BUILDING. -/
theorem discardBuild_of_building (hc : s.context h = some b) (hr : s.record b.record = some g)
    (hg : g.state = .building declared dl) (hb : g.blocks ≠ []) :
    s.discardBuild h = ((s.freed b.record g.blocks).setContext h none).setSlot b.slot
      { s.slot b.slot with build := none } := by
  have freed : s.freeRecord b.record = s.freed b.record g.blocks := by
    rw [(freeRecord_eq hr).2 fun ⟨hsup, _⟩ => by simp [hg, GenState.isSuperseded] at hsup, returnBlocks_of_ne_nil _ hb]
    rfl
  simp only [State.discardBuild, hc, freed]
  rfl

theorem slot_returnBlocks (s : State) (bs : List BlockIndex) (k : SlotIndex) :
    (s.returnBlocks bs).slot k = s.slot k := by
  rw [returnBlocks_frame]
  rfl

/-- The build closed, its slot being as before but for the build reference (R70). -/
theorem finishBuild_eq (s : State) (h : Handle) (b : BuildContext) (g : GenRecord) (c : Word) :
    s.finishBuild h b g c =
      (((s.setRecord b.record (some { g with
          blocks := g.blocks.take ((g.pointCount + 15) / 16), state := .pending c })).returnBlocks
        (g.blocks.drop ((g.pointCount + 15) / 16))).setContext h none).setSlot b.slot
          { s.slot b.slot with build := none } := by
  simp only [State.finishBuild, State.slot_setContext, slot_returnBlocks, State.slot_setRecord]
  rfl

theorem isUnder_discardBuild (s : State) (h : Handle) (p : Port) (n : Session) :
    (s.discardBuild h).isUnder p n = s.isUnder p n := by
  rw [discardBuild_frame]
  rfl

theorem isUnder_removeLease (s : State) (e : LeaseIndex) (p : Port) (n : Session) :
    (s.removeLease e).isUnder p n = s.isUnder p n := by
  rw [removeLease_frame]
  rfl

end

/-! ### CANCEL_BUILD (R72) -/

section
variable {t : State} {p : Port} {f : Frame} {h : Handle} (ha : t.isAttached p = true)
  (hargs : handleArg f.payload = some h)
include ha hargs

theorem cancelBuildBody_buildUnknown (hb : t.buildOf p h = none) :
    cancelBuildBody p f t = refuse t .buildUnknown := by
  simp [cancelBuildBody, ha, hargs, hb]

theorem cancelBuildBody_of_build {b : BuildContext} (hb : t.buildOf p h = some b) :
    cancelBuildBody p f t = .answer (t.discardBuild h) .ok (wordBytes (t.numberOf b.record)) := by
  simp [cancelBuildBody, ha, hargs, hb]

end

/-- Settles O24: past the handle check the body is the discard. -/
theorem cancelBuildDiscards : Obligations.CancelBuildDiscards := by
  intro s t p f n h hclaim hf hn
  have attached := (isAttached_of_claimCommand hclaim p).trans (isAttached_iff.2 ⟨n, hn⟩)
  have args : handleArg f.payload = some h := hf ▸ handleArg_inRange h
  have sameBuild := buildOf_of_claimCommand hclaim p h
  refine ⟨fun hb => ?_, fun b g declared dl hc ho hs hr hg hblocks => ?_⟩
  · have unknown := sameBuild.trans (buildOf_eq_none hn hb)
    exact controlCommand_answer hclaim (cancelBuildBody_buildUnknown attached args unknown)
  · intro free discarded
    have build := sameBuild.trans (buildOf_of_owner hn hc ho hs)
    have record := (record_of_claimCommand hclaim _).trans hr
    have discard : t.discardBuild h = discarded := by
      rw [discardBuild_of_building ((context_of_claimCommand hclaim h).trans hc) record hg hblocks, State.freed,
        slot_of_claimCommand hclaim, freeList_of_claimCommand hclaim, storeLowArmed_of_claimCommand hclaim]
      rfl
    refine ⟨discard, controlCommand_answer (body := cancelBuildBody p) hclaim ?_⟩
    rw [cancelBuildBody_of_build attached args build, discard, numberOf_of_some record]

/-! ### Expiries (R75, R89, R110) -/

theorem execBuildIdleExpiry_of_due {s : State} {h : Handle} {b : BuildContext} {g : GenRecord} {declared : Nat}
    {dl : Time} (ht : s.takesExpiries = true) (hc : s.context h = some b) (hr : s.record b.record = some g)
    (hg : g.state = .building declared dl) (hd : dl ≤ s.time) :
    execBuildIdleExpiry h s = .next (s.expireBuild h b) := by
  have due : s.isDue dl = true := decide_eq_true hd
  simp [execBuildIdleExpiry, hc, ht, State.idleDeadline, hr, hg, GenState.deadline, due]

theorem execProposalExpiry_of_due {s : State} {e : ProposalIndex} {q : Proposal} (ht : s.takesExpiries = true)
    (he : s.proposal e = some q) (hd : q.deadline ≤ s.time) :
    execProposalExpiry e s = .next (s.resolve e .lapsed) := by
  have due : s.isDue q.deadline = true := decide_eq_true hd
  simp [execProposalExpiry, he, ht, due]

theorem execLeaseExpiry_of_due {s : State} {e : LeaseIndex} {l : Lease} (ht : s.takesExpiries = true)
    (he : s.lease e = some l) (hd : l.expiry ≤ s.time) : execLeaseExpiry e s = .next (s.expireLease e l) := by
  have due : s.isDue l.expiry = true := decide_eq_true hd
  simp [execLeaseExpiry, he, ht, due]

/-- Settles O32: the session that decides who is told is the one before the expiry, which touches none. -/
theorem expiriesEndTheirObjects : Obligations.ExpiriesEndTheirObjects := by
  intro s ht
  refine ⟨fun h b g declared dl hc hr hg hd => ?_, fun e q => execProposalExpiry_of_due ht,
    fun e l g he hr hd => ?_⟩
  · have expiry : exec (.buildIdleExpiry h) s = .next (s.expireBuild h b) := execBuildIdleExpiry_of_due ht hc hr hg hd
    rw [expiry, State.expireBuild, numberOf_of_some hr, isUnder_discardBuild]
    exact ⟨fun hu => congrArg _ (if_pos (isUnder_iff.2 hu)), fun hu => congrArg _ (if_neg (mt isUnder_iff.1 hu))⟩
  · have expiry : exec (.leaseExpiry e) s = .next (s.expireLease e l) := execLeaseExpiry_of_due ht he hd
    have removed : s.removeLease e = (s.setLease e none).dropReference l.record := by simp only [State.removeLease, he]
    rw [expiry, State.expireLease, numberOf_of_some hr, isUnder_removeLease, removed]
    exact ⟨fun hu => congrArg _ (if_pos (isUnder_iff.2 hu)), fun hu => congrArg _ (if_neg (mt isUnder_iff.1 hu))⟩

/-! ### OPEN_BUILD (R64) -/

/-- The number assigned depends on the slots and the records alone (R11). -/
theorem newNumber_congr {s t : State} (hs : t.slots = s.slots) (hr : t.records = s.records) (k : SlotIndex) :
    t.newNumber k = s.newNumber k := by
  have used (n : GenNumber) : t.numberInUse k n = s.numberInUse k n := by
    simp only [State.numberInUse, State.record, hr]
  have assigned (fuel : Nat) (n : GenNumber) : t.assignNumber k fuel n = s.assignNumber k fuel n := by
    induction fuel generalizing n with
    | zero => rfl
    | succ fuel ih => simp only [State.assignNumber, used, ih]
  rw [State.newNumber, State.newNumber, assigned, State.slot, State.slot, hs]

section
variable {s t : State} {q : Port} {c : CommandKind} {f : Frame} (hclaim : s.claimCommand q c = some (f, t))
include hclaim

theorem newNumber_of_claimCommand (k : SlotIndex) : t.newNumber k = s.newNumber k := by
  rw [newNumber_congr (s := s)] <;> rw [claimCommand_frame hclaim]

theorem newBuild_of_claimCommand (a : OpenArgs) : t.newBuild a = s.newBuild a := by
  simp only [State.newBuild, newNumber_of_claimCommand hclaim, freeList_of_claimCommand hclaim,
    time_of_claimCommand hclaim, inUse_of_claimCommand hclaim]

theorem buildOpened_of_claimCommand (p : Port) (n : Session) (a : OpenArgs) (h : Handle) (r : RecordIndex) :
    t.buildOpened p n a h r =
      { ((t.setRecord r (some (s.newBuild a))).setContext h (some ⟨a.slot, r, p, n⟩)).setSlot a.slot
          { s.slot a.slot with nextNumber := nextNumber (s.newNumber a.slot), build := some h } with
        freeList := s.freeList.drop (blocksFor a.declared) } := by
  rw [State.buildOpened, newBuild_of_claimCommand hclaim, newNumber_of_claimCommand hclaim,
    slot_of_claimCommand hclaim, State.reserve, freeList_of_claimCommand hclaim]
  rfl

end

/-- The condition of R17, `before` and `after` being the free counts around a reserve. -/
def State.firesStoreLow (s : State) (before after : Nat) : Prop :=
  s.storeLowArmed = true ∧ 32 ≤ before ∧ after < 32

theorem warnStoreLow_eq (s : State) (before : Nat) :
    (¬s.firesStoreLow before s.freeList.length → s.warnStoreLow before = s)
    ∧ (s.firesStoreLow before s.freeList.length → s.warnStoreLow before =
        { s.deliverWhere (PortSet.has s.inUse.definer)
            ⟨.storeLow, 0, BitVec.ofNat 16 s.freeList.length, .zero, none⟩ with storeLowArmed := false }) := by
  have fires : (s.storeLowArmed && decide (Config.storeLowThreshold ≤ before)
      && decide (s.freeList.length < Config.storeLowThreshold)) = true ↔ s.firesStoreLow before s.freeList.length := by
    simp only [Bool.and_eq_true, decide_eq_true_eq, and_assoc]
    rfl
  exact ⟨fun h => if_neg (mt fires.1 h), fun h => if_pos (fires.2 h)⟩

/-- OPEN_BUILD on a slot that takes a build: the resources in the order of R64. -/
def State.allotBuild (s : State) (p : Port) (n : Session) (a : OpenArgs) : CommandResult :=
  match s.freeHandle with
  | none => refuse s .noContext
  | some h =>
    match s.freeRecordIndex with
    | none => refuse s .noRecord
    | some r =>
      if s.freeList.length < blocksFor a.declared then refuse s .noSpace
      else .answer (s.openBuild p n a h r) .ok ([BitVec.ofNat 8 h.val] ++ wordBytes (s.newNumber a.slot))

section
variable {t : State} {p : Port} {f : Frame} {n : Session} {a : OpenArgs} (hn : t.currentSession p = some n)
  (hargs : openArgs f.payload = some a)
include hn hargs

theorem openBuildBody_slotState (hs : (t.slot a.slot).state = .vacant ∨ ∃ d, (t.slot a.slot).state = .retiring d) :
    openBuildBody p f t = refuse t .slotState := by
  simp only [openBuildBody, hn, hargs]
  obtain hs | ⟨d, hs⟩ := hs <;> rw [hs]

/-- The checks of OPEN_BUILD on its slot, behind the state of the slot. -/
theorem openBuildBody_of_definition {d : TableDef}
    (hs : (t.slot a.slot).state = .defined d ∨ ∃ r, (t.slot a.slot).state = .live d r) : openBuildBody p f t =
      if !PortSet.has d.builders p then refuse t .noAccess
      else if (t.slot a.slot).fixedLatch then refuse t .slotFixed
      else if (t.slot a.slot).build.isSome then refuse t .buildOpen
      else if (t.slot a.slot).proposal.isSome then refuse t .proposalOpen
      else t.allotBuild p n a := by
  simp only [openBuildBody, hn, hargs]
  obtain hs | ⟨r, hs⟩ := hs <;> simp only [hs] <;> rfl

end

section
variable {s : State} {a : OpenArgs} (p : Port) (n : Session) {h : Handle} {r : RecordIndex}

theorem allotBuild_noContext (hh : s.freeHandle = none) : s.allotBuild p n a = refuse s .noContext := by
  simp only [State.allotBuild, hh]

theorem allotBuild_noRecord (hh : s.freeHandle = some h) (hr : s.freeRecordIndex = none) :
    s.allotBuild p n a = refuse s .noRecord := by
  simp only [State.allotBuild, hh, hr]

theorem allotBuild_noSpace (hh : s.freeHandle = some h) (hr : s.freeRecordIndex = some r)
    (hb : s.freeList.length < blocksFor a.declared) : s.allotBuild p n a = refuse s .noSpace := by
  simp only [State.allotBuild, hh, hr, if_pos hb]

theorem allotBuild_opens (hh : s.freeHandle = some h) (hr : s.freeRecordIndex = some r)
    (hb : blocksFor a.declared ≤ s.freeList.length) : s.allotBuild p n a =
      .answer ((s.buildOpened p n a h r).warnStoreLow s.freeList.length) .ok
        ([BitVec.ofNat 8 h.val] ++ wordBytes (s.newNumber a.slot)) := by
  simp only [State.allotBuild, hh, hr, if_neg (Nat.not_lt.2 hb)]
  rfl

end

/-- Settles O21: the checks on the slot, then the resources in their order, then the opening with its warning. -/
theorem openBuildChecksAndEffect : Obligations.OpenBuildChecksAndEffect := by
  intro s t p f n k declared im em hclaim hf h2 hm hn need
  have session := (currentSession_of_claimCommand hclaim p).trans (currentSession_eq_some.2 hn)
  have args : openArgs f.payload = some ⟨k, declared, im, em⟩ := hf ▸ openArgs_inRange k im em h2 hm
  have slot := slot_of_claimCommand hclaim k
  have answered {u : State} {st : Status} {pl : List Byte} (hb : openBuildBody p f t = .answer u st pl) :
      answers (.openBuild p) s p f u st pl := controlCommand_answer hclaim hb
  refine ⟨fun hs => answered (openBuildBody_slotState session args (slot ▸ hs)), fun d hs => ?_⟩
  have checks := openBuildBody_of_definition session args (slot ▸ hs)
  rw [slot] at checks
  refine ⟨fun (hd : PortSet.has d.builders p = false) => answered ?_, fun (hd : PortSet.has d.builders p = true) =>
    ⟨fun hl => answered ?_, fun hl hb => answered ?_, fun hl hb => ⟨fun hq => answered ?_, fun hq => ?_⟩⟩⟩
  · simp [checks, hd, refuse]
  · simp [checks, hd, hl, refuse]
  · simp [checks, hd, hl, Option.isSome_iff_ne_none, hb, refuse]
  · simp [checks, hd, hl, hb, Option.isSome_iff_ne_none, hq, refuse]
  have allots : openBuildBody p f t = t.allotBuild p n ⟨k, declared, im, em⟩ := by simp [checks, hd, hl, hb, hq]
  have freeList := freeList_of_claimCommand hclaim
  refine ⟨fun hno => ?_, fun h hfree hlow => ?_⟩
  · have noHandle := (freeHandle_of_claimCommand hclaim).trans (freeHandle_eq_none.2 hno)
    exact answered (allots.trans (allotBuild_noContext p n noHandle))
  have handle := (freeHandle_of_claimCommand hclaim).trans (freeHandle_eq_some.2 ⟨hfree, hlow⟩)
  refine ⟨fun hno => ?_, fun r hr hrlow => ?_⟩
  · have noRecord := (freeRecordIndex_of_claimCommand hclaim).trans (freeRecordIndex_eq_none.2 hno)
    exact answered (allots.trans (allotBuild_noRecord p n handle noRecord))
  have record := (freeRecordIndex_of_claimCommand hclaim).trans (freeRecordIndex_eq_some.2 ⟨hr, hrlow⟩)
  refine ⟨fun hless => ?_, fun hfits => ?_⟩
  · exact answered (allots.trans (allotBuild_noSpace p n handle record (freeList.symm ▸ hless)))
  · intro number g u low
    have opens := allots.trans (allotBuild_opens p n handle record (freeList.symm ▸ hfits))
    have opened : t.buildOpened p n ⟨k, declared, im, em⟩ h r = u := buildOpened_of_claimCommand hclaim ..
    have left : u.freeList.length = s.freeList.length - need := List.length_drop
    have armed : u.storeLowArmed = s.storeLowArmed := show t.storeLowArmed = _ from storeLowArmed_of_claimCommand hclaim
    have definers : u.inUse = s.inUse := show t.inUse = _ from inUse_of_claimCommand hclaim
    obtain ⟨quiet, warned⟩ := warnStoreLow_eq u s.freeList.length
    rw [State.firesStoreLow, left, armed] at quiet warned
    rw [opened, newNumber_of_claimCommand hclaim, freeList] at opens
    rw [definers] at warned
    exact ⟨fun hl => answered (quiet hl ▸ opens), fun hl => answered (warned hl ▸ opens)⟩

/-! ### APPEND_POINTS (R66, R67) -/

/-- The run that R66 step 5 compares with, where the points appended so far are located. -/
theorem readRun_previous {m : Memory} {blocks : List BlockIndex} {c : Nat} {qs : List Point}
    (hq : readRun m blocks 0 c = some qs) :
    readRun m blocks (c - 1) (min c 1) = some (qs.drop (qs.length - 1)) := by
  obtain ⟨init, previous, -, hp, -⟩ :=
    readRun_add (n := c - 1) (k := min c 1) ((show c - 1 + min c 1 = c by omega).symm ▸ hq)
  rw [Nat.zero_add] at hp
  rw [hp, previous_eq_drop hq hp]

/-- Points that rise go on rising exactly when the new ones rise on from the last of them (R66 step 5). -/
theorem rising_last_append_iff {qs rs : List Point} (hq : qs.Pairwise (fun a c => a.x.toInt < c.x.toInt)) :
    rising (qs.drop (qs.length - 1) ++ rs) = true ↔ (qs ++ rs).Pairwise (fun a c => a.x.toInt < c.x.toInt) :=
  ⟨pairwise_append_of_rising hq, fun h => rising_iff.2 (h.sublist ((List.drop_sublist ..).append_right rs))⟩

section
variable {t : State} {p : Port} {f : Frame} {h : Handle} {points : List Point} (ha : t.isAttached p = true)
  (hargs : appendArgs f.payload = some (h, points))
include ha hargs

theorem appendPointsBody_buildUnknown (hb : t.buildOf p h = none) :
    appendPointsBody p f t = refuse t .buildUnknown := by
  simp [appendPointsBody, ha, hargs, hb]

variable {b : BuildContext} {g : GenRecord} {declared : Nat} {dl : Time} (hb : t.buildOf p h = some b)
  (hr : t.record b.record = some g) (hg : g.state = .building declared dl)
include hb hr hg

theorem appendPointsBody_buildOverrun (hover : declared < g.pointCount + points.length) :
    appendPointsBody p f t = refuse (t.restartIdle b.record) .buildOverrun := by
  simp [appendPointsBody, ha, hargs, hb, hr, hg, hover]

variable {before : List Point} (hfit : g.pointCount + points.length ≤ declared)
  (hp : g.points t.store = some before) (hbefore : before.Pairwise (fun a c => a.x.toInt < c.x.toInt))
include hfit hp hbefore

theorem appendPointsBody_notMonotonic (hx : ¬(before ++ points).Pairwise (fun a c => a.x.toInt < c.x.toInt)) :
    appendPointsBody p f t = refuse (t.restartIdle b.record) .notMonotonic := by
  simp [appendPointsBody, ha, hargs, hb, hr, hg, Nat.not_lt.2 hfit, readRun_previous hp,
    mt (rising_last_append_iff hbefore).1 hx]

theorem appendPointsBody_stores {m : Memory} (hx : (before ++ points).Pairwise (fun a c => a.x.toInt < c.x.toInt))
    (hw : writeRun g.blocks t.store g.pointCount points = some m) : appendPointsBody p f t =
      .answer ({ t with store := m }.setRecord b.record (some { g with
          state := .building declared (t.time + t.inUse.buildIdle), pointCount := g.pointCount + points.length })) .ok
        (countBytes (g.pointCount + points.length)) := by
  have appended := restartIdle_of_building (g := { g with pointCount := g.pointCount + points.length })
    (State.record_setRecord_self { t with store := m } b.record _) hg
  rw [State.setRecord_setRecord] at appended
  refine Eq.trans ?_ (congrArg (CommandResult.answer · .ok (countBytes (g.pointCount + points.length))) appended)
  simp [appendPointsBody, ha, hargs, hb, hr, hg, Nat.not_lt.2 hfit, readRun_previous hp,
    (rising_last_append_iff hbefore).2 hx, hw]

end

/-- Settles O22: the body compares with the last point alone, which decides since the points before it rise. -/
theorem appendPointsChecksAndEffect : Obligations.AppendPointsChecksAndEffect := by
  intro s t p f n h points hclaim hf h1 h8 hn
  have attached := (isAttached_of_claimCommand hclaim p).trans (isAttached_iff.2 ⟨n, hn⟩)
  have args : appendArgs f.payload = some (h, points) := hf ▸ appendArgs_inRange h h1 h8
  have sameBuild := buildOf_of_claimCommand hclaim p h
  refine ⟨fun hb => ?_, fun b g declared dl before hc ho hs hr hg hp hroom => ?_⟩
  · have unknown := sameBuild.trans (buildOf_eq_none hn hb)
    exact controlCommand_answer hclaim (appendPointsBody_buildUnknown attached args unknown)
  · intro restarted held inOrder
    have build := sameBuild.trans (buildOf_of_owner hn hc ho hs)
    have record := (record_of_claimCommand hclaim _).trans hr
    have store := store_of_claimCommand hclaim
    have located : g.points t.store = some before := store ▸ hp
    have deadline : t.time + t.inUse.buildIdle = restarted := by
      rw [time_of_claimCommand hclaim, inUse_of_claimCommand hclaim]
    have restart : t.restartIdle b.record = t.setRecord b.record (some held) := by
      rw [restartIdle_of_building record hg, deadline]
    rw [← restart]
    refine ⟨fun hover => ?_, fun hfit hbefore => ⟨fun hx => ?_, fun hx => ?_⟩⟩
    · exact controlCommand_answer hclaim (appendPointsBody_buildOverrun attached args build record hg hover)
    · exact controlCommand_answer hclaim
        (appendPointsBody_notMonotonic attached args build record hg hfit located hbefore hx)
    · obtain ⟨m, hw⟩ := exists_writeRun (m := s.store) (Nat.le_trans hfit hroom)
      refine ⟨m, hw, controlCommand_answer (body := appendPointsBody p) hclaim ?_⟩
      rw [appendPointsBody_stores attached args build record hg hfit located hbefore hx (store.symm ▸ hw), deadline]
      rfl

/-! ### CLOSE_BUILD (R68, R70, R71) -/

section
variable {t : State} {p : Port} {f : Frame} {n : Session} {h : Handle} {expected : Word}
  (hn : t.currentSession p = some n) (hargs : closeArgs f.payload = some (h, expected))
include hn hargs

theorem closeBuildBody_buildUnknown (hb : t.buildOf p h = none) : closeBuildBody p f t = refuse t .buildUnknown := by
  simp [closeBuildBody, hn, hargs, hb]

/-- The checks of CLOSE_BUILD behind the handle check, and its effect (R68, R70, R71). -/
theorem closeBuildBody_of_build {b : BuildContext} {g : GenRecord} {points : List Point} (hb : t.buildOf p h = some b)
    (hr : t.record b.record = some g) (hp : g.points t.store = some points) : closeBuildBody p f t =
      if g.pointCount < 2 then refuse (t.restartIdle b.record) .tooFewPoints
      else if checksumOf points ≠ expected then refuse (t.discardBuild h) .checksumMismatch
      else if needsEntry (t.maskOf b.slot (·.approvers)) p && t.freeProposalIndex.isNone then
        refuse (t.restartIdle b.record) .proposalFull
      else .answer ((t.finishBuild h b g (checksumOf points)).openChange b.slot (.commit b.record) p n).1 .ok
        ([(if needsEntry (t.maskOf b.slot (·.approvers)) p then ProposalOutcome.pending else .adopted).code]
          ++ wordBytes g.number) := by
  have outcome := openChange_outcome (t.finishBuild h b g (checksumOf points)) b.slot (.commit b.record) p n
  rw [maskOf_finishBuild] at outcome
  simp only [closeBuildBody, hn, hargs, hb, hr, hp, ← outcome]

end

/-- Settles O23: past the handle check the checks stand in a row, and the outcome says which opening it was. -/
theorem closeBuildChecksAndEffect : Obligations.CloseBuildChecksAndEffect := by
  intro s t p f n h expected hclaim hf hn
  have session := (currentSession_of_claimCommand hclaim p).trans (currentSession_eq_some.2 hn)
  have args : closeArgs f.payload = some (h, expected) := hf ▸ closeArgs_inRange h expected
  have sameBuild := buildOf_of_claimCommand hclaim p h
  refine ⟨fun hb => ?_, fun b g declared dl points hc ho hs hr hg hp => ?_⟩
  · have unknown := sameBuild.trans (buildOf_eq_none hn hb)
    exact controlCommand_answer hclaim (closeBuildBody_buildUnknown session args unknown)
  · intro restarted approvers needs full sum kept trimmed closed
    have build := sameBuild.trans (buildOf_of_owner hn hc ho hs)
    have record := (record_of_claimCommand hclaim _).trans hr
    have located : g.points t.store = some points := (store_of_claimCommand hclaim).symm ▸ hp
    have restart : t.restartIdle b.record = restarted := by
      rw [restartIdle_of_building record hg, time_of_claimCommand hclaim, inUse_of_claimCommand hclaim]
    have finished : t.finishBuild h b g sum = closed := by
      rw [finishBuild_eq, slot_of_claimCommand hclaim]
    have needed : needsEntry (t.maskOf b.slot (·.approvers)) p = true ↔ needs := by
      rw [needsEntry_iff, State.maskOf, slot_of_claimCommand hclaim]
      rfl
    have free : t.freeProposalIndex = none ↔ full := by
      rw [freeProposalIndex_of_claimCommand hclaim, freeProposalIndex_eq_none]
    have checks := closeBuildBody_of_build session args build record located
    rw [restart, show checksumOf points = sum from rfl, finished] at checks
    have answered {u : State} {st : Status} {pl : List Byte} (hb : closeBuildBody p f t = .answer u st pl) :
        answers (.closeBuild p) s p f u st pl := controlCommand_answer hclaim hb
    refine ⟨fun hfew => answered ?_, fun h2 => ⟨fun hsum => answered ?_, fun hsum hw hfull => answered ?_,
      fun hsum hw hfree => answered ?_, fun hsum hw => answered ?_⟩⟩
    all_goals rw [checks]
    · exact if_pos hfew
    · rw [if_neg (Nat.not_lt.2 h2), if_pos hsum]
      rfl
    · simp [Nat.not_lt.2 h2, hsum, needed.2 hw, free.2 hfull, refuse]
    · simp [Nat.not_lt.2 h2, hsum, needed.2 hw, mt free.1 hfree, ProposalOutcome.code]
    · simp [Nat.not_lt.2 h2, hsum, mt needed.1 hw, ProposalOutcome.code]

end Sys2Proof.Machine
end

section
/-! What a session holds, and the adoptions. A row is calm when no session changes, no lease, build, proposal or approval
is new, and no record becomes CURRENT but where it may. Most rows are calm; the others are taken one by one below. -/

namespace Sys2Proof.Machine

/-! ### Adoptions -/

/-- A record that is CURRENT in `t` was so in `s`, on the same slot, or `P` holds of it and its slot. -/
def AdoptsOnly (P : RecordIndex → SlotIndex → Prop) (s t : State) : Prop :=
  ∀ r g, t.record r = some g → g.state.isCurrent = true →
    P r g.slot ∨ ∃ g', s.record r = some g' ∧ g'.slot = g.slot ∧ g'.state.isCurrent = true

namespace AdoptsOnly

variable {P : RecordIndex → SlotIndex → Prop} {s t u : State} {r : RecordIndex}

theorem of_records (h : t.records = s.records) : AdoptsOnly P s t := fun r g hr hg =>
  .inr ⟨g, by rwa [State.record, h] at hr, rfl, hg⟩

theorem trans (h : AdoptsOnly P s t) (h' : AdoptsOnly P t u) : AdoptsOnly P s u := by
  intro r g hr hg
  obtain hP | ⟨g', hr', hs', hg'⟩ := h' r g hr hg
  · exact .inl hP
  · rw [← hs']
    exact h r g' hr' hg'

theorem setRecord {x : Option GenRecord} (h : ∀ g, x = some g → g.state.isCurrent = true →
    P r g.slot ∨ ∃ g', s.record r = some g' ∧ g'.slot = g.slot ∧ g'.state.isCurrent = true) :
    AdoptsOnly P s (s.setRecord r x) := by
  intro r' g hr hg
  rw [State.record_setRecord_ite] at hr
  split at hr
  · next he => exact he ▸ h g hr hg
  · exact .inr ⟨g, hr, rfl, hg⟩

/-- A record replaced by one that is not CURRENT, or was so before. -/
theorem replace {g g' : GenRecord} (hr : s.record r = some g) (hs : g'.slot = g.slot)
    (h : g'.state.isCurrent = true → g.state.isCurrent = true) : AdoptsOnly P s (s.setRecord r (some g')) :=
  setRecord fun x hx hc => by
    obtain rfl := Option.some.inj hx
    exact .inr ⟨g, hr, hs.symm, h hc⟩

theorem freeRecord (s : State) (r : RecordIndex) : AdoptsOnly P s (s.freeRecord r) := by
  have cleared (g : GenRecord) : AdoptsOnly P s ((s.returnBlocks g.blocks).setRecord r none) := by
    rw [returnBlocks_frame]
    exact (of_records rfl).trans (setRecord nofun)
  obtain ⟨-, h⟩ | ⟨g, -, h | ⟨-, -, h⟩⟩ := freeRecord_cases s r <;> rw [h]
  · exact of_records rfl
  · exact cleared g
  · exact (cleared g).trans (of_records rfl)

theorem dropReference (s : State) (r : RecordIndex) : AdoptsOnly P s (s.dropReference r) := by
  unfold State.dropReference
  split
  · exact of_records rfl
  · rename_i g hg
    have dropped : AdoptsOnly P s (s.setRecord r (some { g with refCount := g.refCount - 1 })) := replace hg rfl id
    dsimp only
    split
    · exact dropped.trans (freeRecord _ r)
    · exact dropped

theorem supersede (s : State) (r : RecordIndex) : AdoptsOnly P s (s.supersede r) := by
  unfold State.supersede
  split
  · exact of_records rfl
  · rename_i g hg
    have superseded : AdoptsOnly P s (s.setGenState r (.superseded (g.state.checksum.getD 0))) := by
      rw [setGenState_of_some hg]
      exact replace hg rfl nofun
    dsimp only
    split
    · exact superseded.trans (freeRecord _ r)
    · exact superseded

theorem adopt (k : SlotIndex) {c : Change} (h : ∀ r g, c = .commit r → s.record r = some g → P r g.slot) :
    AdoptsOnly P s (s.adopt k c) := by
  cases c with
  | commit r =>
    simp only [State.adopt, State.adoptCommit]
    split
    · exact of_records rfl
    · rename_i g hg
      have current : AdoptsOnly P s (s.setGenState r (.current (g.state.checksum.getD 0))) := by
        rw [setGenState_of_some hg]
        exact setRecord fun g' hg' _ => .inl (Option.some.inj hg' ▸ h r g rfl hg)
      split
      · exact current.trans (of_records rfl)
      · exact (current.trans (of_records rfl)).trans (supersede _ _)
      · exact of_records rfl
      · exact of_records rfl
  | retire =>
    simp only [State.adopt, State.adoptRetire]
    split
    · exact of_records rfl
    · exact (of_records rfl).trans (supersede _ _)
    · exact of_records rfl
    · exact of_records rfl

theorem applyOutcome (k : SlotIndex) {c : Change} {o : ProposalOutcome}
    (h : o = .adopted → ∀ r g, c = .commit r → s.record r = some g → P r g.slot) :
    AdoptsOnly P s (s.applyOutcome k c o) := by
  cases o with
  | adopted => exact adopt k (h rfl)
  | pending => exact of_records rfl
  | rejected | lapsed | withdrawn =>
    cases c with
    | commit r => exact freeRecord s r
    | retire => exact of_records rfl

end AdoptsOnly

/-! ### What the sessions hold -/

/-- A proposal with fewer approvals, whose proposer may have ended. -/
def Proposal.fadesTo (q q' : Proposal) : Prop :=
  q'.proposer = q.proposer ∧ q'.session = q.session ∧ (q.proposerEnded = true → q'.proposerEnded = true)
    ∧ ∀ (p : Port) n, q'.approvals[p] = some n → q.approvals[p] = some n

theorem Proposal.fadesTo.refl (q : Proposal) : q.fadesTo q := ⟨rfl, rfl, id, fun _ _ => id⟩

theorem Proposal.fadesTo.trans {q q' q'' : Proposal} (h : q.fadesTo q') (h' : q'.fadesTo q'') : q.fadesTo q'' := by
  obtain ⟨proposer, session, ended, approvals⟩ := h
  obtain ⟨proposer', session', ended', approvals'⟩ := h'
  exact ⟨proposer'.trans proposer, session'.trans session, ended' ∘ ended, fun p n => approvals p n ∘ approvals' p n⟩

theorem Proposal.fadesTo_endSession (p : Port) (n : Session) (q : Proposal) : q.fadesTo (q.endSession p n) := by
  refine ⟨rfl, rfl, fun h => by simp [Proposal.endSession, h], fun x m => ?_⟩
  unfold Proposal.endSession
  dsimp only
  split
  · intro h
    by_cases hx : x = p
    · subst hx
      simp at h
    · rwa [Fin.getElem_fin, Vector.getElem_set_ne _ _ (fun hv => hx (Fin.ext hv.symm))] at h
  · exact id

/-- No lease, build, proposal or approval is new, a part that runs ran before under the same options, and no record
becomes CURRENT but as `P` has it. -/
structure Thins (P : RecordIndex → SlotIndex → Prop) (s t : State) : Prop where
  lease : ∀ e l, t.lease e = some l →
    ∃ l', s.lease e = some l' ∧ l'.port = l.port ∧ l'.session = l.session ∧ l'.slot = l.slot
  context : ∀ h c, t.context h = some c → s.context h = some c
  proposal : ∀ e q, t.proposal e = some q → ∃ q', s.proposal e = some q' ∧ q'.fadesTo q
  running : t.isRunning = true → s.isRunning = true ∧ t.inUse = s.inUse
  adopts : AdoptsOnly P s t

/-- A change that thins what the sessions hold, and that changes no session. -/
structure Calm (P : RecordIndex → SlotIndex → Prop) (s t : State) : Prop extends Thins P s t where
  sessions : t.sessions = s.sessions

variable {P : RecordIndex → SlotIndex → Prop} {s t u : State}

theorem Thins.trans (h : Thins P s t) (h' : Thins P t u) : Thins P s u where
  lease e l hl := by
    obtain ⟨l', hl', hp', hs', hk'⟩ := h'.lease e l hl
    obtain ⟨l'', hl'', hp, hs, hk⟩ := h.lease e l' hl'
    exact ⟨l'', hl'', hp.trans hp', hs.trans hs', hk.trans hk'⟩
  context b c hc := h.context b c (h'.context b c hc)
  proposal e q hq := by
    obtain ⟨q', hq', hf'⟩ := h'.proposal e q hq
    obtain ⟨q'', hq'', hf⟩ := h.proposal e q' hq'
    exact ⟨q'', hq'', hf.trans hf'⟩
  running hr := by
    obtain ⟨hr', hi'⟩ := h'.running hr
    obtain ⟨hr, hi⟩ := h.running hr'
    exact ⟨hr, hi'.trans hi⟩
  adopts := h.adopts.trans h'.adopts

namespace Calm

theorem trans (h : Calm P s t) (h' : Calm P t u) : Calm P s u :=
  ⟨h.toThins.trans h'.toThins, h'.sessions.trans h.sessions⟩

/-- Beside the records, all may change but the sessions, what they hold, the phase and the options. -/
theorem of_rest {s : State} {store : Memory} {freeList : List BlockIndex} {records : Vector (Option GenRecord) 128}
    {armed : Bool} {slots : Vector SlotRecord 64} {controlPtr : Port} {requests : List Port}
    {lanes : Vector (Option LaneWork) 2} {lanePtr : Port} {ports : Vector PortState 4} {fuses : Vector FuseCell 9}
    {burn : Option Burn} {ready rstnLow : Bool} {time : Time} {pending : List Instr}
    (h : AdoptsOnly P s { s with records := records }) :
    Calm P s { s with
      store := store, freeList := freeList, records := records, storeLowArmed := armed, slots := slots
      controlPtr := controlPtr, requests := requests, lanes := lanes, lanePtr := lanePtr, ports := ports, fuses := fuses
      burn := burn, ready := ready, rstnLow := rstnLow, time := time, pending := pending } where
  lease _ l hl := ⟨l, hl, rfl, rfl, rfl⟩
  context _ _ := id
  proposal _ q hq := ⟨q, hq, .refl q⟩
  running hr := ⟨hr, rfl⟩
  adopts := h
  sessions := rfl

theorem refl (s : State) : Calm P s s := of_rest (.of_records rfl)

/-! ### Events, responses and ports -/

theorem updPort (s : State) (p : Port) (f : PortState → PortState) : Calm P s (s.updPort p f) :=
  of_rest (.of_records rfl)

theorem setSlot (s : State) (k : SlotIndex) (x : SlotRecord) : Calm P s (s.setSlot k x) := of_rest (.of_records rfl)

theorem setLane (s : State) (i : LaneIndex) (x : Option LaneWork) : Calm P s (s.setLane i x) :=
  of_rest (.of_records rfl)

theorem deliverEvent (s : State) (p : Port) (e : EventRecord) : Calm P s (s.deliverEvent p e) := by
  rw [deliverEvent_frame]
  exact of_rest (.of_records rfl)

theorem deliverWhere (s : State) (f : Port → Bool) (e : EventRecord) : Calm P s (s.deliverWhere f e) := by
  rw [deliverWhere_frame]
  exact of_rest (.of_records rfl)

theorem announceChange (s : State) (k : SlotIndex) (m : PortSet) (n : GenNumber) :
    Calm P s (s.announceChange k m n) := deliverWhere ..

theorem deliverResponse (s : State) (p : Port) (r : Response) : Calm P s (s.deliverResponse p r) := by
  rw [deliverResponse_frame]
  exact of_rest (.of_records rfl)

/-! ### Records -/

theorem setRecord {r : RecordIndex} {x : Option GenRecord} (h : AdoptsOnly P s (s.setRecord r x)) :
    Calm P s (s.setRecord r x) := of_rest h

theorem freeRecord (s : State) (r : RecordIndex) : Calm P s (s.freeRecord r) := by
  have adopts : AdoptsOnly P s (s.freeRecord r) := .freeRecord s r
  rw [freeRecord_frame] at adopts ⊢
  exact of_rest adopts

theorem dropReference (s : State) (r : RecordIndex) : Calm P s (s.dropReference r) := by
  have adopts : AdoptsOnly P s (s.dropReference r) := .dropReference s r
  rw [dropReference_frame] at adopts ⊢
  exact of_rest adopts

theorem raiseReference (s : State) (r : RecordIndex) : Calm P s (s.raiseReference r) := by
  unfold State.raiseReference
  split
  · exact refl s
  · next g hg => exact setRecord (.replace hg rfl id)

theorem restartIdle (s : State) (r : RecordIndex) : Calm P s (s.restartIdle r) := by
  unfold State.restartIdle
  split
  · exact refl s
  · next g hg =>
    split
    · exact setRecord (.replace hg rfl nofun)
    all_goals exact refl s

/-! ### Leases, builds and proposals that end -/

theorem setLease_none (s : State) (e : LeaseIndex) : Calm P s (s.setLease e none) :=
  { refl s with
    lease := fun e' l hl => by
      rw [State.lease_setLease_ite] at hl
      split at hl
      · cases hl
      · exact ⟨l, hl, rfl, rfl, rfl⟩ }

theorem setContext_none (s : State) (h : Handle) : Calm P s (s.setContext h none) :=
  { refl s with
    context := fun h' c hc => by
      rw [State.context_setContext_ite] at hc
      split at hc
      · cases hc
      · exact hc }

theorem setProposal_none (s : State) (e : ProposalIndex) : Calm P s (s.setProposal e none) :=
  { refl s with
    proposal := fun e' q hq => by
      rw [State.proposal_setProposal_ite] at hq
      split at hq
      · cases hq
      · exact ⟨q, hq, .refl q⟩ }

/-- The end of a port's session in the proposals (R98, R99). -/
theorem endSession (s : State) (p : Port) (n : Session) :
    Calm P s { s with proposals := s.proposals.map (fun q => q.map (Proposal.endSession p n)) } :=
  { refl s with
    proposal := fun e q hq => by
      simp only [State.proposal, Fin.getElem_fin, Vector.getElem_map, Option.map_eq_some_iff] at hq
      obtain ⟨q', hq', rfl⟩ := hq
      exact ⟨q', hq', q'.fadesTo_endSession p n⟩ }

/-- A lease renewed (R107). -/
theorem renew {e : LeaseIndex} {l : Lease} (h : s.lease e = some l) (expiry : Time) :
    Calm P s (s.setLease e (some { l with expiry := expiry })) :=
  { refl s with
    lease := fun e' l' hl => by
      rw [State.lease_setLease_ite] at hl
      split at hl
      · next he =>
        obtain rfl := Option.some.inj hl
        exact ⟨l, he ▸ h, rfl, rfl, rfl⟩
      · exact ⟨l', hl, rfl, rfl, rfl⟩ }

theorem removeLease (s : State) (e : LeaseIndex) : Calm P s (s.removeLease e) := by
  unfold State.removeLease
  split
  · exact refl s
  · exact (setLease_none ..).trans (dropReference ..)

theorem discardBuild (s : State) (h : Handle) : Calm P s (s.discardBuild h) := by
  unfold State.discardBuild
  split
  · exact refl s
  · exact ((freeRecord ..).trans (setContext_none ..)).trans (setSlot ..)

/-- A build is finished (R70): its record is PENDING. -/
theorem finishBuild (s : State) (h : Handle) (b : BuildContext) (g : GenRecord) (c : Word) :
    Calm P s (s.finishBuild h b g c) := by
  have pending : Calm P s (s.setRecord b.record
      (some { g with blocks := g.blocks.take ((g.pointCount + 15) / 16), state := .pending c })) :=
    setRecord (.setRecord fun _ hx hc => nomatch Option.some.inj hx ▸ hc)
  rw [finishBuild_eq, returnBlocks_frame]
  exact ((pending.trans (of_rest (.of_records rfl))).trans (setContext_none ..)).trans (setSlot ..)

theorem adopt (k : SlotIndex) {c : Change} (h : ∀ r g, c = .commit r → s.record r = some g → P r g.slot) :
    Calm P s (s.adopt k c) := by
  have adopts : AdoptsOnly P s (s.adopt k c) := .adopt k h
  rw [adopt_frame] at adopts ⊢
  exact of_rest adopts

theorem applyOutcome (k : SlotIndex) {c : Change} {o : ProposalOutcome}
    (h : o = .adopted → ∀ r g, c = .commit r → s.record r = some g → P r g.slot) :
    Calm P s (s.applyOutcome k c o) := by
  have adopts : AdoptsOnly P s (s.applyOutcome k c o) := .applyOutcome k h
  rw [applyOutcome_frame] at adopts ⊢
  exact of_rest adopts

theorem resolve (e : ProposalIndex) {o : ProposalOutcome}
    (h : o = .adopted → ∀ q r g, s.proposal e = some q → q.change = .commit r → s.record r = some g → P r g.slot) :
    Calm P s (s.resolve e o) := by
  unfold State.resolve
  split
  · exact refl s
  · next q hq =>
    have cleared : Calm P s ((s.applyOutcome q.slot q.change o).clearProposal e q.slot) :=
      (applyOutcome q.slot fun ho r g => h ho q r g hq).trans ((setSlot ..).trans (setProposal_none ..))
    have told (f x) := cleared.trans (deliverWhere _ f x)
    cases o with
    | adopted => exact (told ..).trans (announceChange ..)
    | rejected | lapsed | withdrawn | pending => exact told ..

/-- The teardown of a session (R122). -/
theorem teardown (s : State) (p : Port) (n : Session) : Calm P s (s.teardown p n) := by
  have leases : Calm P s ((s.leasesOf p).foldl State.removeLease s) :=
    foldl_induction (Calm P s) _ _ s (refl s) fun t e _ h => h.trans (removeLease t e)
  have builds := foldl_induction (Calm P s) State.discardBuild
    (((s.leasesOf p).foldl State.removeLease s).buildsOf p n) _ leases fun t h _ ht => ht.trans (discardBuild t h)
  exact builds.trans (endSession ..)

end Calm

end Sys2Proof.Machine
end

section
/-! The laws of sessions and leases through what is not calm: sessions that begin and end, and the leases, builds,
proposals and approvals that are new. -/

namespace Sys2Proof.Machine

/-! ### The session law -/

/-- What holds a session number names the session of its port (R116, R122). -/
structure State.namesSessions (s : State) : Prop where
  lease : ∀ e l, s.lease e = some l → s.isSessionOf l.port l.session
  build : ∀ h c, s.context h = some c → s.isSessionOf c.owner c.session
  approval : ∀ e q (p : Port) n, s.proposal e = some q → q.approvals[p] = some n → s.isSessionOf p n
  proposer : ∀ e q, s.proposal e = some q → q.proposerEnded = false → s.isSessionOf q.proposer q.session

theorem sessionLaw_iff {s : State} : s.sessionLaw ↔ (∀ p, (s.session p).law) ∧ s.namesSessions :=
  and_congr_right fun _ => ⟨fun ⟨lease, build, approval, proposer⟩ => ⟨lease, build, approval, proposer⟩,
    fun ⟨lease, build, approval, proposer⟩ => ⟨lease, build, approval, proposer⟩⟩

/-- Nothing names a session of the port. -/
structure State.bare (s : State) (p : Port) : Prop where
  lease : ∀ e l, s.lease e = some l → l.port ≠ p
  build : ∀ h c, s.context h = some c → c.owner ≠ p
  approval : ∀ e q, s.proposal e = some q → q.approvals[p] = none
  proposer : ∀ e q, s.proposal e = some q → q.proposerEnded = false → q.proposer ≠ p

theorem isSessionOf_of_currentSession {s : State} {p : Port} {n : Session} (h : s.currentSession p = some n) :
    s.isSessionOf p n := by
  rw [State.isSessionOf, SessionEntry.number, currentSession_eq_some.1 h]

section
variable {P : RecordIndex → SlotIndex → Prop} {s t u : State}

theorem Thins.namesSessions (h : Thins P s t) (hn : ∀ p, (t.session p).number = (s.session p).number)
    (law : s.namesSessions) : t.namesSessions := by
  have same (p : Port) (n : Session) : t.isSessionOf p n ↔ s.isSessionOf p n := by
    rw [State.isSessionOf, hn, State.isSessionOf]
  constructor
  · intro e l hl
    obtain ⟨l', hl', hp, hs, -⟩ := h.lease e l hl
    rw [same, ← hp, ← hs]
    exact law.lease e l' hl'
  · intro b c hc
    rw [same]
    exact law.build b c (h.context b c hc)
  · intro e q p n hq ha
    obtain ⟨q', hq', -, -, -, approvals⟩ := h.proposal e q hq
    rw [same]
    exact law.approval e q' p n hq' (approvals p n ha)
  · intro e q hq hf
    obtain ⟨q', hq', proposer, session, ended, -⟩ := h.proposal e q hq
    rw [same, proposer, session]
    exact law.proposer e q' hq' (Bool.eq_false_iff.2 fun ht => by simp [ended ht] at hf)

theorem Thins.leasesWhere_length_le (h : Thins P s t) (p : Port) :
    (t.leasesWhere (fun l => l.port == p)).length ≤ (s.leasesWhere (fun l => l.port == p)).length := by
  refine (List.monotone_filter_right _ fun e he => ?_).length_le
  obtain ⟨l, hl, hp⟩ := (Option.any_eq_true ..).1 he
  obtain ⟨l', hl', hp', -⟩ := h.lease e l hl
  rw [hl', Option.any_some, hp']
  exact hp

theorem Thins.leaseLaw (h : Thins P s t) (law : s.leaseLaw) : t.leaseLaw := by
  intro hr
  obtain ⟨running, inUse⟩ := h.running hr
  obtain ⟨once, limit⟩ := law running
  refine ⟨fun e e' l l' hl hl' hp hk => ?_, fun p => ?_⟩
  · obtain ⟨x, hx, xp, -, xk⟩ := h.lease e l hl
    obtain ⟨x', hx', xp', -, xk'⟩ := h.lease e' l' hl'
    exact once e e' x x' hx hx' (xp.trans (hp.trans xp'.symm)) (xk.trans (hk.trans xk'.symm))
  · rw [inUse]
    exact (h.leasesWhere_length_le p).trans (limit p)

/-! ### What every row keeps -/

/-- The laws of sessions and leases are kept, an ended proposer stays ended, and no record becomes CURRENT but as `P`
has it. -/
structure Orderly (P : RecordIndex → SlotIndex → Prop) (s t : State) : Prop where
  sessions : s.sessionLaw → t.sessionLaw
  leases : s.leaseLaw → t.leaseLaw
  ended : ∀ e q q', s.proposal e = some q → t.proposal e = some q' → q.proposerEnded = true → q'.proposerEnded = true
  adopts : AdoptsOnly P s t

theorem Thins.orderly (h : Thins P s t) (law : s.sessionLaw → t.sessionLaw) : Orderly P s t where
  sessions := law
  leases := h.leaseLaw
  ended e q q' hq hq' he := by
    obtain ⟨x, hx, -, -, ended, -⟩ := h.proposal e q' hq'
    obtain rfl := Option.some.inj (hq.symm.trans hx)
    exact ended he
  adopts := h.adopts

theorem Calm.orderly (h : Calm P s t) : Orderly P s t :=
  h.toThins.orderly fun law => by
    have session (p : Port) : t.session p = s.session p := by simp only [State.session, h.sessions]
    obtain ⟨entries, names⟩ := sessionLaw_iff.1 law
    exact sessionLaw_iff.2 ⟨fun p => session p ▸ entries p, h.namesSessions (fun p => by rw [session]) names⟩

theorem Orderly.before (h : Orderly P s t) (h' : Calm P t u) : Orderly P s u where
  sessions := h'.orderly.sessions ∘ h.sessions
  leases := h'.orderly.leases ∘ h.leases
  ended e q q'' hq hq'' he := by
    obtain ⟨q', hq', -, -, ended, -⟩ := h'.proposal e q'' hq''
    exact ended (h.ended e q q' hq hq' he)
  adopts := h.adopts.trans h'.adopts

theorem Orderly.after (h : Calm P s t) (hq : t.proposals = s.proposals) (h' : Orderly P t u) : Orderly P s u where
  sessions := h'.sessions ∘ h.orderly.sessions
  leases := h'.leases ∘ h.orderly.leases
  ended e q q' hp := h'.ended e q q' (by rwa [State.proposal, hq])
  adopts := h.adopts.trans h'.adopts

/-! ### Sessions that begin and end -/

theorem Thins.setSession (s : State) (p : Port) (x : SessionEntry) : Thins P s (s.setSession p x) :=
  { (Calm.refl s).toThins with }

/-- The entry of a port that no holding names may change. -/
theorem State.namesSessions.setSession {p : Port} (law : s.namesSessions) (hb : s.bare p) (x : SessionEntry) :
    (s.setSession p x).namesSessions := by
  have other {q : Port} {n : Session} (hne : q ≠ p) (h : s.isSessionOf q n) : (s.setSession p x).isSessionOf q n := by
    rw [State.isSessionOf, State.session_setSession_ne _ _ hne]
    exact h
  refine ⟨fun e l hl => other (hb.lease e l hl) (law.lease e l hl), fun h c hc => other (hb.build h c hc)
    (law.build h c hc), fun e q r n hq ha => other ?_ (law.approval e q r n hq ha), fun e q hq hf =>
    other (hb.proposer e q hq hf) (law.proposer e q hq hf)⟩
  rintro rfl
  exact nomatch (hb.approval e q hq).symm.trans ha

theorem session_law_setSession {p : Port} {x : SessionEntry} (hx : x.law) (h : ∀ q, q ≠ p → (s.session q).law)
    (q : Port) : ((s.setSession p x).session q).law := by
  by_cases hq : q = p
  · rw [hq, State.session_setSession_self]
    exact hx
  · rw [State.session_setSession_ne _ _ hq]
    exact h q hq

theorem State.namesSessions.bare {p : Port} (law : s.namesSessions) (hn : (s.session p).number = none) : s.bare p := by
  have no {n : Session} (h : s.isSessionOf p n) : False := nomatch hn.symm.trans h
  refine ⟨fun e l hl hp => no (hp ▸ law.lease e l hl), fun h c hc hp => no (hp ▸ law.build h c hc), fun e q hq => ?_,
    fun e q hq hf hp => no (hp ▸ law.proposer e q hq hf)⟩
  exact Option.eq_none_iff_forall_ne_some.2 fun n ha => no (law.approval e q p n hq ha)

/-- A session begins (R118). -/
theorem Orderly.attach {p : Port} {n : Session} (hd : (s.session p).state = .detached) (hn : n ≠ 0) :
    Orderly P s (s.setSession p { state := .attached n, last := n, teardownPending := false }) :=
  (Thins.setSession ..).orderly fun law => by
    obtain ⟨entries, names⟩ := sessionLaw_iff.1 law
    have bare := names.bare (p := p) (by rw [SessionEntry.number, hd])
    exact sessionLaw_iff.2 ⟨session_law_setSession ⟨rfl, hn, rfl⟩ fun q _ => entries q, names.setSession bare _⟩

/-- A session becomes the ending one (R121). -/
theorem Orderly.takeRequest (s : State) (p : Port) : Orderly P s (s.takeRequest p) := by
  unfold State.takeRequest
  split
  · next n hs =>
    refine (Thins.setSession ..).orderly fun law => ?_
    obtain ⟨entries, names⟩ := sessionLaw_iff.1 law
    have entry := entries p
    simp only [SessionEntry.law, hs] at entry
    refine sessionLaw_iff.2 ⟨session_law_setSession ⟨entry.1, entry.2.1, rfl⟩ fun q _ => entries q,
      (Thins.setSession (P := P) ..).namesSessions (fun q => ?_) names⟩
    by_cases hq : q = p
    · rw [hq, State.session_setSession_self, SessionEntry.number, SessionEntry.number, hs]
    · rw [State.session_setSession_ne _ _ hq]
  · exact (Calm.refl s).orderly
  · exact (Calm.updPort ..).orderly

end

/-! ### The teardown (R122) -/

theorem removeLease_lease_ite (s : State) (e e' : LeaseIndex) :
    (s.removeLease e).lease e' = if e' = e then none else s.lease e' := by
  rw [State.lease, removeLease_lease]
  exact State.lease_setLease_ite ..

theorem discardBuild_context_ite (s : State) (h h' : Handle) :
    (s.discardBuild h).context h' = if h' = h then none else s.context h' := by
  rw [State.context, discardBuild_context]
  exact State.context_setContext_ite ..

theorem foldl_removeLease_lease (es : List LeaseIndex) (s : State) (e : LeaseIndex) :
    (es.foldl State.removeLease s).lease e = if e ∈ es then none else s.lease e := by
  induction es generalizing s with
  | nil => simp
  | cons x es ih => rw [List.foldl_cons, ih, removeLease_lease_ite]; grind

theorem foldl_discardBuild_context (hs : List Handle) (s : State) (h : Handle) :
    (hs.foldl State.discardBuild s).context h = if h ∈ hs then none else s.context h := by
  induction hs generalizing s with
  | nil => simp
  | cons x hs ih => rw [List.foldl_cons, ih, discardBuild_context_ite]; grind

/-- The removal of leases touches neither builds nor proposals. -/
theorem foldl_removeLease_frame (es : List LeaseIndex) (s : State) :
    (es.foldl State.removeLease s).contexts = s.contexts ∧ (es.foldl State.removeLease s).proposals = s.proposals :=
  foldl_induction (fun t => t.contexts = s.contexts ∧ t.proposals = s.proposals) _ es s ⟨rfl, rfl⟩
    fun t e _ h => by rw [removeLease_frame]; exact h

/-- The discard of builds touches neither leases nor proposals. -/
theorem foldl_discardBuild_frame (hs : List Handle) (s : State) :
    (hs.foldl State.discardBuild s).leases = s.leases ∧ (hs.foldl State.discardBuild s).proposals = s.proposals :=
  foldl_induction (fun t => t.leases = s.leases ∧ t.proposals = s.proposals) _ hs s ⟨rfl, rfl⟩
    fun t h _ ht => by rw [discardBuild_frame]; exact ht

section
variable (s : State) (p : Port) (n : Session)

theorem mem_leasesOf {e : LeaseIndex} : e ∈ s.leasesOf p ↔ ∃ l, s.lease e = some l ∧ l.port = p := by
  simp [State.leasesOf, Option.any_eq_true]

theorem mem_buildsOf {h : Handle} :
    h ∈ s.buildsOf p n ↔ ∃ c, s.context h = some c ∧ c.owner = p ∧ c.session = n := by
  simp [State.buildsOf, Option.any_eq_true]

theorem teardown_lease (e : LeaseIndex) :
    (s.teardown p n).lease e = if e ∈ s.leasesOf p then none else s.lease e := by
  rw [← foldl_removeLease_lease]
  exact congrArg (fun x : Vector (Option Lease) 32 => x[e]) (foldl_discardBuild_frame ..).1

theorem teardown_context (h : Handle) :
    (s.teardown p n).context h = if h ∈ s.buildsOf p n then none else s.context h := by
  have contexts := (foldl_removeLease_frame (s.leasesOf p) s).1
  have builds : ((s.leasesOf p).foldl State.removeLease s).buildsOf p n = s.buildsOf p n := by
    simp only [State.buildsOf, State.context, contexts]
  have context : ((s.leasesOf p).foldl State.removeLease s).context h = s.context h := by
    simp only [State.context, contexts]
  rw [← context, ← foldl_discardBuild_context, ← builds]
  rfl

theorem teardown_proposal (e : ProposalIndex) :
    (s.teardown p n).proposal e = (s.proposal e).map (Proposal.endSession p n) := by
  have kept := (foldl_discardBuild_frame (((s.leasesOf p).foldl State.removeLease s).buildsOf p n) _).2.trans
    (foldl_removeLease_frame (s.leasesOf p) s).2
  simp only [State.teardown, State.proposal, kept, Fin.getElem_fin, Vector.getElem_map]

/-- A teardown leaves nothing that names the session of its port. -/
theorem State.namesSessions.bare_teardown {s : State} {p : Port} {n : Session} (law : s.namesSessions)
    (hn : (s.session p).number = some n) : (s.teardown p n).bare p := by
  have same {m : Session} (h : s.isSessionOf p m) : m = n := Option.some.inj (h.symm.trans hn)
  constructor
  · intro e l hl hp
    rw [teardown_lease] at hl
    split at hl
    · cases hl
    · next hm => exact hm ((mem_leasesOf ..).2 ⟨l, hl, hp⟩)
  · intro h c hc hp
    rw [teardown_context] at hc
    split at hc
    · cases hc
    · next hm => exact hm ((mem_buildsOf ..).2 ⟨c, hc, hp, same (hp ▸ law.build h c hc)⟩)
  · intro e q hq
    rw [teardown_proposal, Option.map_eq_some_iff] at hq
    obtain ⟨q', hq', rfl⟩ := hq
    unfold Proposal.endSession
    dsimp only
    split
    · simp
    · next ha => exact Option.eq_none_iff_forall_ne_some.2 fun m hm => ha (same (law.approval e q' p m hq' hm) ▸ hm)
  · intro e q hq hf hp
    rw [teardown_proposal, Option.map_eq_some_iff] at hq
    obtain ⟨q', hq', rfl⟩ := hq
    simp only [Proposal.endSession, Bool.or_eq_false_iff, Bool.and_eq_false_iff, beq_eq_false_iff_ne] at hf hp
    obtain ⟨hf, hne⟩ := hf
    exact hne.elim (· hp) (· (same (hp ▸ law.proposer e q' hq' hf)))

end

section
variable {P : RecordIndex → SlotIndex → Prop} {s t u : State} {p : Port} {n : Session}

/-- A session ends (R120, R122): `t` is the state at its teardown, in which its port may be ENDING. -/
theorem Orderly.endSession {x : SessionEntry} (h : Thins P s t) (hq : ∀ q, q ≠ p → t.session q = s.session q)
    (hs : (s.session p).number = some n) (ht : (t.session p).number = some n) (hx : x.law) :
    Orderly P s ((t.teardown p n).setSession p x) := by
  have torn : Calm P t (t.teardown p n) := .teardown t p n
  have session (q : Port) : (t.teardown p n).session q = t.session q := by simp only [State.session, torn.sessions]
  refine ((h.trans torn.toThins).trans (.setSession ..)).orderly fun law => ?_
  obtain ⟨entries, names⟩ := sessionLaw_iff.1 law
  have names : t.namesSessions := h.namesSessions (fun q => by
    by_cases hp : q = p
    · rw [hp, hs, ht]
    · rw [hq q hp]) names
  refine sessionLaw_iff.2 ⟨session_law_setSession hx fun q hne => ?_,
    (torn.namesSessions (fun q => by rw [session]) names).setSession (names.bare_teardown ht) x⟩
  rw [session, hq q hne]
  exact entries q

theorem Orderly.finishTeardown (s : State) (p : Port) : Orderly P s (s.finishTeardown p) := by
  unfold State.finishTeardown
  split
  · next n hs =>
    have number : (s.session p).number = some n := by rw [SessionEntry.number, hs]
    refine Orderly.before (.endSession (Calm.refl s).toThins (fun _ _ => rfl) number number ?_) (.updPort ..)
    rfl
  · exact (Calm.refl s).orderly
  · exact (Calm.refl s).orderly

/-! ### Leases, builds and proposals that are new -/

/-- How many leases satisfy a test when one entry changes. -/
theorem leasesWhere_setLease (s : State) (e : LeaseIndex) (x : Option Lease) (f : Lease → Bool) :
    ((s.setLease e x).leasesWhere f).length + ((s.lease e).any f).toNat
      = (s.leasesWhere f).length + (x.any f).toNat := by
  have count := length_filter_update (f := fun e => (s.lease e).any f)
    (f' := fun e' => ((s.setLease e x).lease e').any f) (i := e)
    (fun j hj => by rw [State.lease_setLease_ite, if_neg hj])
  rw [State.lease_setLease_self] at count
  exact count

/-- A lease begins (R105). -/
theorem Orderly.setLease {e : LeaseIndex} {l : Lease} (hn : s.isSessionOf l.port l.session)
    (hu : ∀ e' l', s.lease e' = some l' → ¬(l'.port = l.port ∧ l'.slot = l.slot))
    (hl : (s.leasesWhere (fun x => x.port == l.port)).length < s.inUse.leaseLimit) :
    Orderly P s (s.setLease e (some l)) :=
  { (Calm.refl s).orderly with
    sessions := fun law => by
      obtain ⟨entries, names⟩ := sessionLaw_iff.1 law
      refine sessionLaw_iff.2 ⟨entries, fun e' l' h => ?_, names.build, names.approval, names.proposer⟩
      rw [State.lease_setLease_ite] at h
      split at h
      · exact Option.some.inj h ▸ hn
      · exact names.lease e' l' h
    leases := fun law hr => by
      obtain ⟨once, limit⟩ := law hr
      refine ⟨?_, fun p => ?_⟩
      · simp only [State.lease_setLease_ite]
        grind
      · have count := leasesWhere_setLease s e (some l) (fun x => x.port == p)
        have limit := limit p
        show _ ≤ s.inUse.leaseLimit
        by_cases hp : l.port = p
        · subst hp
          have := Bool.toNat_le ((some l).any fun x => x.port == l.port)
          omega
        · rw [Option.any_some, beq_false_of_ne hp, Bool.toNat_false] at count
          omega }

/-- A build begins (R64). -/
theorem Orderly.setContext {h : Handle} {c : BuildContext} (hn : s.isSessionOf c.owner c.session) :
    Orderly P s (s.setContext h (some c)) :=
  { (Calm.refl s).orderly with
    sessions := fun law => by
      obtain ⟨entries, names⟩ := sessionLaw_iff.1 law
      refine sessionLaw_iff.2 ⟨entries, names.lease, fun h' c' hc => ?_, names.approval, names.proposer⟩
      rw [State.context_setContext_ite] at hc
      split at hc
      · exact Option.some.inj hc ▸ hn
      · exact names.build h' c' hc }

/-- A proposal opens, or gains an approval (R82, R86). -/
theorem Orderly.setProposal {e : ProposalIndex} {q : Proposal}
    (he : ∀ q', s.proposal e = some q' → q'.proposerEnded = true → q.proposerEnded = true)
    (ha : s.sessionLaw → ∀ (p : Port) n, q.approvals[p] = some n → s.isSessionOf p n)
    (hp : s.sessionLaw → q.proposerEnded = false → s.isSessionOf q.proposer q.session) :
    Orderly P s (s.setProposal e (some q)) :=
  { (Calm.refl s).orderly with
    sessions := fun law => by
      obtain ⟨entries, names⟩ := sessionLaw_iff.1 law
      refine sessionLaw_iff.2 ⟨entries, names.lease, names.build, fun e' q' p n hq hn => ?_, fun e' q' hq hf => ?_⟩
      all_goals
        rw [State.proposal_setProposal_ite] at hq
        split at hq
      · exact ha law p n (Option.some.inj hq ▸ hn)
      · exact names.approval e' q' p n hq hn
      · obtain rfl := Option.some.inj hq
        exact hp law hf
      · exact names.proposer e' q' hq hf
    ended := fun e' x x' hx hx' ht => by
      rw [State.proposal_setProposal_ite] at hx'
      split at hx'
      · next h => exact Option.some.inj hx' ▸ he x (h ▸ hx) ht
      · obtain rfl := Option.some.inj (hx.symm.trans hx')
        exact ht }

/-- Whose approval stands at the opening: the proposer's, where it is in the captured set (R82). -/
theorem openingApprovals_getElem (approvers : PortSet) (p q : Port) (n : Session) :
    (openingApprovals approvers p n)[q] = if q = p ∧ PortSet.has approvers p = true then some n else none := by
  unfold openingApprovals
  split
  · next h =>
    by_cases hq : q = p
    · subst hq
      simp [h]
    · rw [Fin.getElem_fin, Vector.getElem_set_ne _ _ (fun hv => hq (Fin.ext hv.symm))]
      simp [hq]
  · next h => simp [h]

/-- A change is opened (R82). -/
theorem Orderly.openChange {k : SlotIndex} {c : Change} (hn : s.currentSession p = some n)
    (h : needsEntry (s.maskOf k (·.approvers)) p = false →
      ∀ r g, c = .commit r → s.record r = some g → P r g.slot) : Orderly P s (s.openChange k c p n).1 := by
  have session := isSessionOf_of_currentSession hn
  unfold State.openChange
  dsimp only
  split
  · split
    · exact (Calm.refl s).orderly
    · next e he =>
      have free := (freeProposalIndex_eq_some.1 he).1
      dsimp only
      refine Orderly.before (Orderly.before ?_ (.setSlot ..)) (.deliverWhere ..)
      refine Orderly.setProposal (fun q' hq' => nomatch free.symm.trans hq') (fun _ q m ha => ?_) fun _ _ => session
      rw [openingApprovals_getElem] at ha
      split at ha
      · next hq =>
        obtain rfl := Option.some.inj ha
        exact hq.1 ▸ session
      · cases ha
  · next hno => exact ((Calm.adopt k (h (by simpa using hno))).trans (.announceChange ..)).orderly

/-- A build is opened (R64). -/
theorem Orderly.openBuild (hn : s.currentSession p = some n) (a : OpenArgs) (h : Handle) (r : RecordIndex) :
    Orderly P s (s.openBuild p n a h r) := by
  have introduced : Calm P s ((s.reserve (blocksFor a.declared)).setRecord r (some (s.newBuild a))) :=
    .of_rest (.setRecord fun _ hx hc => nomatch Option.some.inj hx ▸ hc)
  have warned (t : State) (m : Nat) : Calm P t (t.warnStoreLow m) := by
    unfold State.warnStoreLow
    split
    · exact (Calm.deliverWhere ..).trans (.of_rest (.of_records rfl))
    · exact .refl t
  have session := isSessionOf_of_currentSession hn
  have opened : Orderly P s (s.buildOpened p n a h r) := by
    refine .after introduced rfl (.before (.setContext ?_) (.setSlot ..))
    exact session
  exact opened.before (warned ..)

/-! ### Start-ups -/

/-- A start-up empties what the sessions hold (R178, R179). -/
theorem Orderly.of_empty (hl : ∀ e, t.lease e = none) (hc : ∀ h, t.context h = none) (hq : ∀ e, t.proposal e = none)
    (hs : ∀ p, (t.session p).law) (h : AdoptsOnly P s t) : Orderly P s t where
  sessions _ := sessionLaw_iff.2 ⟨hs, by constructor <;> simp [hl, hc, hq]⟩
  leases _ _ := by simp [State.leasesWhere, hl]
  ended e q q' _ hq' := nomatch (hq e).symm.trans hq'
  adopts := h

theorem Orderly.coldStart (s : State) : Orderly P s s.coldStart := by
  have empty : (∀ e, s.coldStart.lease e = none) ∧ (∀ h, s.coldStart.context h = none)
      ∧ (∀ e, s.coldStart.proposal e = none) ∧ (∀ p, (s.coldStart.session p).law)
      ∧ ∀ r, s.coldStart.record r = none := by
    unfold State.coldStart State.startCommon
    generalize s.loadOptions.eachPort _ = t
    simp [State.lease, State.context, State.proposal, State.session, State.record, SessionEntry.initial,
      SessionEntry.law]
  obtain ⟨lease, context, proposal, session, record⟩ := empty
  exact .of_empty lease context proposal session fun r g hg => nomatch (record r).symm.trans hg

theorem Orderly.warmStart (s : State) : Orderly P s s.warmStart := by
  have session (p : Port) : (s.warmStart.session p).law := by
    unfold State.warmStart State.startCommon
    generalize s.eachPort _ = t
    simp [State.session, SessionEntry.law]
  refine .of_empty (warmStart_lease s) (warmStart_context s) (warmStart_proposal s) session fun r g hg _ => ?_
  obtain ⟨g', c, hr, hc, rfl⟩ := warmStart_record_eq_some.1 hg
  exact .inr ⟨g', hr, rfl, isCurrent_iff.2 ⟨c, hc⟩⟩

end

end Sys2Proof.Machine
end

section
/-! Every row keeps the laws of sessions and leases, and no row adopts a generation but the two that may: a CLOSE_BUILD
without other approvers and the last APPROVE (R91). -/

namespace Sys2Proof.Machine

/-! ### Which rows may adopt -/

/-- The record was built by the port on a slot whose change no other port has to approve (R71, R84). -/
def State.closesAlone (s : State) (p : Port) (r : RecordIndex) : Prop :=
  ∃ h b, s.context h = some b ∧ b.record = r ∧ b.owner = p ∧ needsEntry (s.maskOf b.slot (·.approvers)) p = false

/-- The record is proposed, and the port is of the captured set, each other port of which has approved (R86, R91). -/
def State.approvesLast (s : State) (p : Port) (r : RecordIndex) : Prop :=
  ∃ e q, s.proposal e = some q ∧ q.change = .commit r ∧ PortSet.has q.approvers p = true ∧ s.isAttached p = true
    ∧ ∀ x, PortSet.has q.approvers x = true → x ≠ p → q.hasApproval x = true

/-- The row may make the record, which is in use on the slot, CURRENT. -/
def State.mayAdopt (s : State) (c : Instr) (r : RecordIndex) (k : SlotIndex) : Prop :=
  (∃ g, s.record r = some g ∧ g.slot = k)
    ∧ ((∃ p, c = .closeBuild p ∧ s.closesAlone p r) ∨ ∃ p, c = .approve p ∧ s.approvesLast p r)

/-! ### Control commands -/

/-- The command carried out is orderly, if it completes. -/
def CommandResult.Orderly (P : RecordIndex → SlotIndex → Prop) (s : State) : CommandResult → Prop
  | .answer u _ _ | .handOver u => Machine.Orderly P s u
  | .fault _ => True

section
variable {P : RecordIndex → SlotIndex → Prop} {s : State} (p : Port) (f : Frame)

theorem refuse_orderly (s : State) (st : Status) : (refuse s st).Orderly P s := (Calm.refl s).orderly

/-- A check that refuses (R140). -/
theorem CommandResult.Orderly.of_check {c : Prop} [Decidable c] {st : Status} {x : CommandResult}
    (h : ¬c → x.Orderly P s) : (if c then refuse s st else x).Orderly P s := by
  split
  · exact refuse_orderly ..
  · exact h ‹_›

variable (s)

theorem attachBody_orderly : (attachBody p f s).Orderly P s := by
  unfold attachBody
  split
  · exact refuse_orderly ..
  · exact refuse_orderly ..
  · refine Orderly.attach ‹_› ?_
    unfold nextSession
    split
    · decide
    · bv_omega

theorem detachBody_orderly : (detachBody p f s).Orderly P s := by
  unfold detachBody
  split
  · exact refuse_orderly ..
  · next n hn =>
    refine Orderly.endSession (.setSession ..) (fun q hq => State.session_setSession_ne _ _ hq)
      (isSessionOf_of_currentSession hn) ?_ rfl
    rw [State.session_setSession_self, SessionEntry.number]

theorem defineTableBody_orderly : (defineTableBody p f s).Orderly P s := by
  unfold defineTableBody
  refine .of_check fun _ => ?_
  split
  · exact refuse_orderly ..
  · exact .of_check fun _ => .of_check fun _ => .of_check fun _ => (Calm.setSlot ..).orderly

theorem tableInfoBody_orderly : (tableInfoBody p f s).Orderly P s := by
  unfold tableInfoBody
  refine .of_check fun _ => ?_
  split
  · exact refuse_orderly ..
  · exact (Calm.refl s).orderly

theorem proposeRetireBody_orderly : (proposeRetireBody p f s).Orderly P s := by
  cases hn : s.currentSession p with
  | none =>
    simp only [proposeRetireBody, hn]
    exact refuse_orderly ..
  | some n =>
    cases hk : slotArg f.payload with
    | none =>
      simp only [proposeRetireBody, hn, hk]
      exact refuse_orderly ..
    | some k =>
      have opening {d : TableDef} (hs : (s.slot k).state = .defined d ∨ ∃ r, (s.slot k).state = .live d r) :
          (proposeRetireBody p f s).Orderly P s := by
        rw [proposeRetireBody_of_definition hn hk hs]
        exact .of_check fun _ => .of_check fun _ => .of_check fun _ => .of_check fun _ => .of_check fun _ =>
          Orderly.openChange hn nofun
      cases hs : (s.slot k).state with
      | defined d => exact opening (.inl hs)
      | live d r => exact opening (.inr ⟨r, hs⟩)
      | vacant =>
        rw [proposeRetireBody_slotState hn hk (.inl (by rw [hs]; rfl))]
        exact refuse_orderly ..
      | retiring d =>
        rw [proposeRetireBody_slotState hn hk (.inr ⟨d, hs⟩)]
        exact refuse_orderly ..

theorem storeInfoBody_orderly : (storeInfoBody f s).Orderly P s := (Calm.refl s).orderly

theorem readPointsBody_orderly : (readPointsBody p f s).Orderly P s := by
  unfold readPointsBody
  refine .of_check fun _ => ?_
  split
  · exact refuse_orderly ..
  · split
    · exact refuse_orderly ..
    · split
      · trivial
      · refine .of_check fun _ => ?_
        split
        · trivial
        · exact (Calm.refl s).orderly

theorem openBuildBody_orderly : (openBuildBody p f s).Orderly P s := by
  cases hn : s.currentSession p with
  | none =>
    simp only [openBuildBody, hn]
    exact refuse_orderly ..
  | some n =>
    cases ha : openArgs f.payload with
    | none =>
      simp only [openBuildBody, hn, ha]
      exact refuse_orderly ..
    | some a =>
      have allotted : (s.allotBuild p n a).Orderly P s := by
        unfold State.allotBuild
        split
        · exact refuse_orderly ..
        · split
          · exact refuse_orderly ..
          · exact .of_check fun _ => Orderly.openBuild hn ..
      have opening {d : TableDef}
          (hs : (s.slot a.slot).state = .defined d ∨ ∃ r, (s.slot a.slot).state = .live d r) :
          (openBuildBody p f s).Orderly P s := by
        rw [openBuildBody_of_definition hn ha hs]
        exact .of_check fun _ => .of_check fun _ => .of_check fun _ => .of_check fun _ => allotted
      cases hs : (s.slot a.slot).state with
      | defined d => exact opening (.inl hs)
      | live d r => exact opening (.inr ⟨r, hs⟩)
      | vacant =>
        rw [openBuildBody_slotState hn ha (.inl hs)]
        exact refuse_orderly ..
      | retiring d =>
        rw [openBuildBody_slotState hn ha (.inr ⟨d, hs⟩)]
        exact refuse_orderly ..

theorem appendPointsBody_orderly : (appendPointsBody p f s).Orderly P s := by
  have restarted (r : RecordIndex) (st : Status) : (refuse (s.restartIdle r) st).Orderly P s :=
    (Calm.restartIdle s r).orderly
  unfold appendPointsBody
  refine .of_check fun _ => ?_
  split
  · exact refuse_orderly ..
  · split
    · exact refuse_orderly ..
    · split
      · trivial
      · next g hg =>
        split
        · trivial
        · trivial
        · trivial
        · dsimp only
          split
          · exact restarted ..
          · split
            · trivial
            · split
              · exact restarted ..
              · split
                · trivial
                · refine (Calm.trans ?_ (.restartIdle ..)).orderly
                  exact .of_rest (.replace hg rfl id)

/-- A CLOSE_BUILD adopts only where no other port has to approve (R71). -/
theorem closeBuildBody_orderly : (closeBuildBody p f s).Orderly (s.mayAdopt (.closeBuild p)) s := by
  unfold closeBuildBody
  split
  · exact refuse_orderly ..
  · next n hn =>
    split
    · exact refuse_orderly ..
    · next h _ _ =>
      split
      · exact refuse_orderly ..
      · next b hb =>
        obtain ⟨hc, ho, -⟩ := buildOf_eq_some hb
        split
        · trivial
        · next g hg =>
          split
          · exact (Calm.restartIdle ..).orderly
          · split
            · trivial
            · next ps _ =>
              split
              · exact (Calm.discardBuild ..).orderly
              · split
                · exact (Calm.restartIdle ..).orderly
                · have closed := finishBuild_eq s h b g (checksumOf ps)
                  refine Orderly.after (Calm.finishBuild s h b g (checksumOf ps)) ?_ (Orderly.openChange ?_ ?_)
                  · rw [closed, returnBlocks_frame]
                    rfl
                  · rw [closed, returnBlocks_frame]
                    exact hn
                  · rintro hno r g' ⟨⟩ hr
                    rw [maskOf_finishBuild] at hno
                    rw [closed, returnBlocks_frame] at hr
                    obtain rfl := Option.some.inj ((State.record_setRecord_self s b.record _).symm.trans hr)
                    exact ⟨⟨g, hg, rfl⟩, .inl ⟨p, rfl, h, b, hc, rfl, ho, hno⟩⟩

theorem cancelBuildBody_orderly : (cancelBuildBody p f s).Orderly P s := by
  unfold cancelBuildBody
  refine .of_check fun _ => ?_
  split
  · exact refuse_orderly ..
  · split
    · exact refuse_orderly ..
    · exact (Calm.discardBuild ..).orderly

variable {s p f} in
/-- What the checks of R85 pass. -/
theorem approverChecks_passed {n : Session} {e : ProposalIndex} {q : Proposal}
    (h : s.approverChecks p f.payload = .ok (n, e, q)) :
    s.currentSession p = some n ∧ s.proposal e = some q ∧ PortSet.has q.approvers p = true := by
  unfold State.approverChecks at h
  repeat' split at h
  all_goals cases h
  simp_all

/-- What an APPROVE does to a proposal (R86). -/
theorem approve_eq (q : Proposal) (p : Port) (n : Session) : q.approve p n =
    { q with approvals := if q.approvals[p] = none then q.approvals.set p (some n) else q.approvals } := by
  unfold Proposal.approve Proposal.hasApproval
  cases h : q.approvals[p] with
  | none => rfl
  | some m => rfl

/-- Whose approval stands after an APPROVE (R86). -/
theorem approve_getElem (q : Proposal) (p x : Port) (n : Session) :
    (q.approve p n).approvals[x] = if x = p ∧ q.approvals[p] = none then some n else q.approvals[x] := by
  rw [approve_eq]
  dsimp only
  split
  · next h =>
    by_cases hx : x = p
    · subst hx
      simp [h]
    · simp only [hx, false_and, if_false]
      exact Vector.getElem_set_ne _ _ fun hv => hx (Fin.ext hv.symm)
  · next h => exact (if_neg fun hn => h hn.2).symm

/-- An APPROVE adopts only where it leaves no approval outstanding (R86). -/
theorem approveBody_orderly : (approveBody p f s).Orderly (s.mayAdopt (.approve p)) s := by
  unfold approveBody
  split
  · exact refuse_orderly ..
  · next n e q h =>
    obtain ⟨hn, hq, hp⟩ := approverChecks_passed h
    have session := isSessionOf_of_currentSession hn
    have ended : (q.approve p n).proposerEnded = q.proposerEnded := by rw [approve_eq]
    have approved : Orderly (s.mayAdopt (.approve p)) s (s.setProposal e (some (q.approve p n))) := by
      refine .setProposal (fun q' hq' ht => ?_) (fun law x m hm => ?_) fun law hf => ?_
      · obtain rfl := Option.some.inj (hq.symm.trans hq')
        rw [ended, ht]
      · rw [approve_getElem] at hm
        split at hm
        · next hx =>
          obtain rfl := Option.some.inj hm
          exact hx.1 ▸ session
        · exact (sessionLaw_iff.1 law).2.approval e q x m hq hm
      · rw [approve_eq]
        exact (sessionLaw_iff.1 law).2.proposer e q hq (ended ▸ hf)
    dsimp only
    split
    · next hleft =>
      refine approved.before (.resolve e fun _ q' r g hq' hr hg => ?_)
      obtain rfl := Option.some.inj ((State.proposal_setProposal_self ..).symm.trans hq')
      refine ⟨⟨g, hg, rfl⟩, .inr ⟨p, rfl, e, q, hq, (approve_slot_change q p n).2 ▸ hr, hp, ?_, fun x hx hne => ?_⟩⟩
      · rw [State.isAttached, hn]
        rfl
      · have approvers : (q.approve p n).approvers = q.approvers := by rw [approve_eq]
        have stands := List.filter_eq_nil_iff.1 (List.length_eq_zero_iff.1 hleft) x (List.mem_finRange x)
        rw [approvers, hx, Proposal.hasApproval, approve_getElem, if_neg (fun h => hne h.1)] at stands
        exact Option.isSome_iff_ne_none.2 (by simpa using stands)
    · exact approved

theorem vetoBody_orderly : (vetoBody p f s).Orderly P s := by
  unfold vetoBody
  split
  · exact refuse_orderly ..
  · exact (Calm.resolve _ nofun).orderly

theorem withdrawBody_orderly : (withdrawBody p f s).Orderly P s := by
  unfold withdrawBody
  refine .of_check fun _ => ?_
  split
  · exact refuse_orderly ..
  · split
    · exact refuse_orderly ..
    · split
      · exact refuse_orderly ..
      · exact .of_check fun _ => (Calm.resolve _ nofun).orderly

theorem holdBody_orderly : (holdBody p f s).Orderly P s := by
  unfold holdBody
  split
  · exact refuse_orderly ..
  · next n hn =>
    split
    · exact refuse_orderly ..
    · split
      · exact refuse_orderly ..
      · exact refuse_orderly ..
      · exact refuse_orderly ..
      · next k _ _ d r _ =>
        refine .of_check fun _ => .of_check fun hnone => .of_check fun hlimit => ?_
        split
        · exact refuse_orderly ..
        · refine Orderly.before (.setLease (isSessionOf_of_currentSession hn) (fun e' l' hl' hsame => ?_)
            (Nat.lt_of_not_le hlimit)) (.raiseReference ..)
          have empty : s.leasesWhere (fun l => l.port == p && l.slot == k) = [] := by simpa using hnone
          have unheld := List.filter_eq_nil_iff.1 empty e' (List.mem_finRange e')
          simp [hl', hsame] at unheld

theorem renewBody_orderly : (renewBody p f s).Orderly P s := by
  unfold renewBody
  refine .of_check fun _ => ?_
  split
  · exact refuse_orderly ..
  · split
    · exact refuse_orderly ..
    · next e l h => exact (Calm.renew (callersLease_eq_some h).1 _).orderly

theorem releaseBody_orderly : (releaseBody p f s).Orderly P s := by
  unfold releaseBody
  refine .of_check fun _ => ?_
  split
  · exact refuse_orderly ..
  · split
    · exact refuse_orderly ..
    · exact (Calm.removeLease ..).orderly

theorem readOptionsBody_orderly : (readOptionsBody f s).Orderly P s := (Calm.refl s).orderly

theorem startBurn_calm (x : FuseField) (v : Word) : Calm P s (s.startBurn x v p) := .of_rest (.of_records rfl)

theorem programOptionBody_orderly : (programOptionBody p f s).Orderly P s := by
  unfold programOptionBody
  refine .of_check fun _ => ?_
  split
  · exact refuse_orderly ..
  · exact .of_check fun _ => .of_check fun _ => .of_check fun _ => .of_check fun _ => (startBurn_calm ..).orderly

theorem closeProvisioningBody_orderly : (closeProvisioningBody p f s).Orderly P s := by
  unfold closeProvisioningBody
  exact .of_check fun _ => .of_check fun _ => .of_check fun _ => .of_check fun _ => (startBurn_calm ..).orderly

end

/-! ### Rows -/

/-- The row is orderly, if it completes. -/
def OrderlyEnd (P : RecordIndex → SlotIndex → Prop) (s : State) : Host.Outcome State Fault Refusal → Prop
  | .next t => Orderly P s t
  | .fault _ | .refused _ => True

section
variable {P : RecordIndex → SlotIndex → Prop} {s : State}

theorem Calm.orderlyEnd {t : State} (h : Calm P s t) : OrderlyEnd P s (.next t) := h.orderly

theorem mayAdopt_of_claimCommand {t : State} {p : Port} {k : CommandKind} {f : Frame}
    (h : s.claimCommand p k = some (f, t)) (c : Instr) : t.mayAdopt c = s.mayAdopt c := by
  rw [claimCommand_frame h]
  rfl

theorem controlCommand_orderly {c : Instr} {p : Port} {k : CommandKind} {body : Frame → State → CommandResult}
    (hb : ∀ f t, (body f t).Orderly (t.mayAdopt c) t) (s : State) :
    OrderlyEnd (s.mayAdopt c) s (controlCommand p k body s) := by
  obtain ⟨-, h⟩ | ⟨f, t, hc, h⟩ := controlCommand_cases p k body s
  · rw [h]
    exact (Calm.refl s).orderlyEnd
  · have carried := hb f t
    rw [mayAdopt_of_claimCommand hc] at carried
    have claimed {u : State} (hu : Orderly (s.mayAdopt c) t u) : Orderly (s.mayAdopt c) s u := by
      refine .after (t := t) ?_ ?_ hu <;> rw [claimCommand_frame hc]
      exact .of_rest (.of_records rfl)
    obtain ⟨u, st, pl, hu, h⟩ | ⟨u, hu, h⟩ | ⟨e, hu, h⟩ := h <;> rw [h] <;> rw [hu] at carried
    · exact (claimed carried).before (.deliverResponse ..)
    · exact claimed carried
    · trivial

/-- Every row of a control command. -/
theorem controlRow_orderly {c : Instr} {p : Port} {k : CommandKind} (h : controlRow c = some (p, k)) (s : State) :
    OrderlyEnd (s.mayAdopt c) s (exec c s) := by
  cases c with
  | attach p => exact controlCommand_orderly (fun f t => attachBody_orderly t p f) s
  | detach p => exact controlCommand_orderly (fun f t => detachBody_orderly t p f) s
  | defineTable p => exact controlCommand_orderly (fun f t => defineTableBody_orderly t p f) s
  | tableInfo p => exact controlCommand_orderly (fun f t => tableInfoBody_orderly t p f) s
  | proposeRetire p => exact controlCommand_orderly (fun f t => proposeRetireBody_orderly t p f) s
  | storeInfo p => exact controlCommand_orderly (fun f t => storeInfoBody_orderly t f) s
  | openBuild p => exact controlCommand_orderly (fun f t => openBuildBody_orderly t p f) s
  | appendPoints p => exact controlCommand_orderly (fun f t => appendPointsBody_orderly t p f) s
  | closeBuild p => exact controlCommand_orderly (fun f t => closeBuildBody_orderly t p f) s
  | cancelBuild p => exact controlCommand_orderly (fun f t => cancelBuildBody_orderly t p f) s
  | approve p => exact controlCommand_orderly (fun f t => approveBody_orderly t p f) s
  | veto p => exact controlCommand_orderly (fun f t => vetoBody_orderly t p f) s
  | withdraw p => exact controlCommand_orderly (fun f t => withdrawBody_orderly t p f) s
  | hold p => exact controlCommand_orderly (fun f t => holdBody_orderly t p f) s
  | renew p => exact controlCommand_orderly (fun f t => renewBody_orderly t p f) s
  | release p => exact controlCommand_orderly (fun f t => releaseBody_orderly t p f) s
  | readPoints p => exact controlCommand_orderly (fun f t => readPointsBody_orderly t p f) s
  | readOptions p => exact controlCommand_orderly (fun f t => readOptionsBody_orderly t f) s
  | programOption p => exact controlCommand_orderly (fun f t => programOptionBody_orderly t p f) s
  | closeProvisioning p => exact controlCommand_orderly (fun f t => closeProvisioningBody_orderly t p f) s
  | lookup | lookupBatch | burnCompletion | laneGrant | captureClaim | releaseClaim | teardownRequest | pendingTeardown
  | buildIdleExpiry | proposalExpiry | leaseExpiry | post | fetch | refetch | drain | status | unknownTransactionKind
  | prstnAsserted | prstnReleased | rstnAsserted | rstnReleased | powerOn | coldStartUp | warmStartUp => cases h

/-! ### Lookups -/

theorem Calm.takeCapture (s : State) (i : LaneIndex) (w : LaneWork) : Calm P s (s.takeCapture i w) := by
  obtain ⟨r, stale, -, h⟩ | ⟨st, -, h⟩ := takeCapture_cases s i w <;> rw [h]
  · exact (raiseReference ..).trans (setLane ..)
  · exact (deliverResponse ..).trans (setLane ..)

theorem Calm.grantLane {t : State} {i : LaneIndex} (h : s.grantLane = some (i, t)) : Calm P s t := by
  obtain ⟨p, f, rest, -, -, -, rfl⟩ := grantLane_cases h
  exact of_rest (.of_records rfl)

theorem takeRelease_orderly {t : State} (h : Calm P s t) (i : LaneIndex) (w : LaneWork) (c : Capture) :
    OrderlyEnd P s (t.takeRelease i w c) := by
  obtain ⟨c', -, -, hc⟩ | ⟨-, hc⟩ := takeRelease_cases t i w c <;> rw [hc]
  · exact (h.trans (((Calm.dropReference ..).trans (.deliverResponse ..)).trans (.setLane ..))).orderlyEnd
  · trivial

theorem lookupCommand_orderly (p : Port) (k : CommandKind) (s : State) : OrderlyEnd P s (lookupCommand p k s) := by
  unfold lookupCommand
  split
  · next i t _ hsv =>
    have served : Calm P s t := by
      unfold State.servingLane at hsv
      split at hsv
      · obtain ⟨-, rfl⟩ : _ ∧ s = t := by simpa using hsv
        exact .refl s
      · split at hsv
        · exact .grantLane hsv
        · cases hsv
    split
    · exact (Calm.refl s).orderlyEnd
    · next w _ =>
      have captured := served.trans (.takeCapture t i w)
      split
      · exact takeRelease_orderly served ..
      · dsimp only
        split
        · exact takeRelease_orderly captured ..
        · exact captured.orderlyEnd
  · exact (Calm.refl s).orderlyEnd

theorem execLaneGrant_orderly (s : State) : OrderlyEnd P s (execLaneGrant s) := by
  unfold execLaneGrant
  split
  · exact (Calm.grantLane ‹_›).orderlyEnd
  · exact (Calm.refl s).orderlyEnd

theorem execCaptureClaim_orderly (i : LaneIndex) (s : State) : OrderlyEnd P s (execCaptureClaim i s) := by
  unfold execCaptureClaim
  split
  · split
    · exact (Calm.takeCapture ..).orderlyEnd
    · exact (Calm.refl s).orderlyEnd
  · exact (Calm.refl s).orderlyEnd

theorem execReleaseClaim_orderly (i : LaneIndex) (s : State) : OrderlyEnd P s (execReleaseClaim i s) := by
  unfold execReleaseClaim
  split
  · split
    · exact takeRelease_orderly (.refl s) ..
    · exact (Calm.refl s).orderlyEnd
  · exact (Calm.refl s).orderlyEnd

/-! ### The Table Manager's other claims -/

theorem execTeardownRequest_orderly (p : Port) (s : State) : OrderlyEnd P s (execTeardownRequest p s) := by
  unfold execTeardownRequest
  split
  · split
    · refine Orderly.after ?_ ?_ (.takeRequest ..)
      · exact .of_rest (.of_records rfl)
      · rfl
    · exact (Calm.refl s).orderlyEnd
  · exact (Calm.refl s).orderlyEnd

theorem execPendingTeardown_orderly (p : Port) (s : State) : OrderlyEnd P s (execPendingTeardown p s) := by
  unfold execPendingTeardown
  split
  · exact Orderly.finishTeardown s p
  · exact (Calm.refl s).orderlyEnd

theorem execBuildIdleExpiry_orderly (h : Handle) (s : State) : OrderlyEnd P s (execBuildIdleExpiry h s) := by
  unfold execBuildIdleExpiry State.expireBuild
  dsimp only
  repeat' split
  · exact ((Calm.discardBuild ..).trans (.deliverEvent ..)).orderlyEnd
  · exact (Calm.discardBuild ..).orderlyEnd
  · exact (Calm.refl s).orderlyEnd
  · exact (Calm.refl s).orderlyEnd

theorem execProposalExpiry_orderly (e : ProposalIndex) (s : State) : OrderlyEnd P s (execProposalExpiry e s) := by
  unfold execProposalExpiry
  repeat' split
  · exact (Calm.resolve e nofun).orderlyEnd
  · exact (Calm.refl s).orderlyEnd
  · exact (Calm.refl s).orderlyEnd

theorem execLeaseExpiry_orderly (e : LeaseIndex) (s : State) : OrderlyEnd P s (execLeaseExpiry e s) := by
  unfold execLeaseExpiry State.expireLease
  dsimp only
  repeat' split
  · exact ((Calm.removeLease ..).trans (.deliverEvent ..)).orderlyEnd
  · exact (Calm.removeLease ..).orderlyEnd
  · exact (Calm.refl s).orderlyEnd
  · exact (Calm.refl s).orderlyEnd

theorem execBurnCompletion_orderly (s : State) : OrderlyEnd P s (execBurnCompletion s) := by
  have burned (b : Burn) : Calm P s
      { s.setFuse b.field { start := true, completion := true, cells := b.value } with burn := none } :=
    .of_rest (.of_records rfl)
  unfold execBurnCompletion State.completeBurn
  dsimp only
  repeat' split
  · exact ((burned _).trans (.deliverResponse ..)).orderlyEnd
  · exact (burned _).orderlyEnd
  · exact (Calm.refl s).orderlyEnd

/-! ### The link, lines and resets -/

theorem transaction_orderly (p : Port) (kind : Byte) (bs : List Byte) (c : Clocking) (s : State) :
    OrderlyEnd P s (transaction p kind bs c s) := by
  obtain h | ⟨x, -, -, h⟩ := transaction_cases p kind bs c s <;> rw [h]
  · exact (Calm.refl s).orderlyEnd
  · exact (Calm.of_rest (.of_records rfl)).orderlyEnd

theorem execPrstnAsserted_orderly (p : Port) (headPassed : Bool) (s : State) :
    OrderlyEnd P s (execPrstnAsserted p headPassed s) := by
  have low : Calm P s (s.updPort p fun x => { x with prstnLow := true }) := .updPort ..
  have reset (t : State) : Calm P t (t.resetPort p) := by
    rw [resetPort_frame]
    exact .of_rest (.of_records rfl)
  have passed (t : State) : Calm P t (t.passBefore p) := by
    unfold State.passBefore
    split
    · exact .of_rest (.of_records rfl)
    · exact .refl t
  unfold execPrstnAsserted
  dsimp only
  split
  · exact (Calm.refl s).orderlyEnd
  · split
    · split
      · exact ((low.trans (passed _)).trans (reset _)).orderlyEnd
      · exact (low.trans (reset _)).orderlyEnd
    · exact low.orderlyEnd

theorem execPrstnReleased_orderly (p : Port) (s : State) : OrderlyEnd P s (execPrstnReleased p s) := by
  unfold execPrstnReleased
  repeat' split
  · exact (Calm.refl s).orderlyEnd
  · exact (Calm.updPort ..).orderlyEnd
  · exact (Calm.updPort ..).orderlyEnd

/-- A part that stops keeps what its sessions hold, whatever its options become (R177). -/
theorem Calm.of_stopped {t : State} (hr : t.isRunning = false) (hl : t.leases = s.leases)
    (hc : t.contexts = s.contexts) (hq : t.proposals = s.proposals) (hg : t.records = s.records)
    (hs : t.sessions = s.sessions) : Calm P s t where
  lease e l h := ⟨l, by rwa [State.lease, hl] at h, rfl, rfl, rfl⟩
  context b c h := by rwa [State.context, hc] at h
  proposal e q h := ⟨q, by rwa [State.proposal, hq] at h, .refl q⟩
  running h := nomatch hr.symm.trans h
  adopts := .of_records hg
  sessions := hs

theorem Calm.enterReset (s : State) {x : Phase} (hx : x ≠ .running) (shadow : Option Shadow) (store : Memory)
    (rstnLow : Bool) (time : Time) :
    Calm P s { s.enterReset x with shadow := shadow, store := store, rstnLow := rstnLow, time := time } := by
  rw [enterReset_frame]
  exact of_stopped (by simpa [State.isRunning] using hx) rfl rfl rfl rfl rfl

theorem execRstnAsserted_orderly (s : State) : OrderlyEnd P s (execRstnAsserted s) := by
  unfold execRstnAsserted
  split
  · exact (Calm.refl s).orderlyEnd
  · exact (Calm.enterReset s (x := .inReset s.assertedKind) nofun ..).orderlyEnd

theorem execRstnReleased_orderly (s : State) : OrderlyEnd P s (execRstnReleased s) := by
  unfold execRstnReleased
  repeat' split
  · exact (Calm.refl s).orderlyEnd
  · next k _ =>
    have begun : Calm P s ({ s with rstnLow := false }.beginStartUp k) := .of_stopped rfl rfl rfl rfl rfl rfl
    exact begun.orderlyEnd
  · exact (Calm.of_rest (.of_records rfl)).orderlyEnd
  · exact (Calm.of_rest (.of_records rfl)).orderlyEnd

theorem execPowerOn_orderly (s : State) : OrderlyEnd P s (execPowerOn s) := by
  unfold execPowerOn
  dsimp only
  split
  · exact (Calm.enterReset s (x := .inReset .cold) nofun ..).orderlyEnd
  · exact (Calm.enterReset s (x := .startUp .cold) nofun ..).orderlyEnd

theorem execColdStartUp_orderly (s : State) : OrderlyEnd P s (execColdStartUp s) := by
  unfold execColdStartUp
  split
  · exact Orderly.coldStart s
  all_goals exact (Calm.refl s).orderlyEnd

theorem execWarmStartUp_orderly (s : State) : OrderlyEnd P s (execWarmStartUp s) := by
  unfold execWarmStartUp
  split
  · exact Orderly.warmStart s
  all_goals exact (Calm.refl s).orderlyEnd

theorem Calm.tick (s : State) : Calm P s s.tick := by
  obtain h | h | ⟨hp, h⟩ := tick_cases s <;> rw [h]
  · exact refl s
  · exact of_rest (.of_records rfl)
  · rw [loadOptions_frame]
    exact of_stopped (by simp [State.isRunning, hp]) rfl rfl rfl rfl rfl

end

/-! ### Every row -/

theorem exec_orderly (c : Instr) (s : State) : OrderlyEnd (s.mayAdopt c) s (exec c s) := by
  cases c with
  | lookup p => exact lookupCommand_orderly p .lookup s
  | lookupBatch p => exact lookupCommand_orderly p .lookupBatch s
  | burnCompletion => exact execBurnCompletion_orderly s
  | laneGrant => exact execLaneGrant_orderly s
  | captureClaim i => exact execCaptureClaim_orderly i s
  | releaseClaim i => exact execReleaseClaim_orderly i s
  | teardownRequest p => exact execTeardownRequest_orderly p s
  | pendingTeardown p => exact execPendingTeardown_orderly p s
  | buildIdleExpiry h => exact execBuildIdleExpiry_orderly h s
  | proposalExpiry e => exact execProposalExpiry_orderly e s
  | leaseExpiry e => exact execLeaseExpiry_orderly e s
  | post p bs c => exact transaction_orderly p 0x01 bs c s
  | fetch p n c => exact transaction_orderly p 0x02 _ c s
  | refetch p n c => exact transaction_orderly p 0x03 _ c s
  | drain p n c => exact transaction_orderly p 0x04 _ c s
  | status p n c => exact transaction_orderly p 0x05 _ c s
  | unknownTransactionKind p kind n c =>
    show OrderlyEnd _ s (execUnknownTransactionKind p kind n c s)
    unfold execUnknownTransactionKind
    split
    · exact (Calm.refl s).orderlyEnd
    · exact transaction_orderly ..
  | prstnAsserted p b => exact execPrstnAsserted_orderly p b s
  | prstnReleased p => exact execPrstnReleased_orderly p s
  | rstnAsserted => exact execRstnAsserted_orderly s
  | rstnReleased => exact execRstnReleased_orderly s
  | powerOn => exact execPowerOn_orderly s
  | coldStartUp => exact execColdStartUp_orderly s
  | warmStartUp => exact execWarmStartUp_orderly s
  | attach | detach | defineTable | tableInfo | proposeRetire | storeInfo | openBuild | appendPoints | closeBuild
  | cancelBuild | approve | veto | withdraw | hold | renew | release | readPoints | readOptions | programOption
  | closeProvisioning => exact controlRow_orderly rfl s

/-- What a step does to sessions, to what they hold and to the CURRENT records: only a row of the queue may adopt. -/
theorem step_orderly {s t : State} (h : step s = .next t) :
    Orderly (fun r k => ∃ c rest, s.pending = c :: rest ∧ s.mayAdopt c r k) s t := by
  unfold step at h
  split at h
  · obtain rfl := Host.Outcome.next.inj h
    exact (Calm.tick s).orderly
  · next c rest hq =>
    have row := exec_orderly c { s with pending := rest }
    rw [h] at row
    obtain ⟨sessions, leases, ended, adopts⟩ := row
    exact ⟨sessions, leases, ended, fun r g hr hg => (adopts r g hr hg).imp_left fun hm => ⟨c, rest, hq, hm⟩⟩

/-- Settles O55: every row is orderly, by the case of its operation. -/
theorem sessionAndLeaseLawsKept : Obligations.SessionAndLeaseLawsKept := fun _ _ h =>
  have orderly := step_orderly h
  ⟨orderly.sessions, orderly.leases, orderly.ended⟩

/-- Settles O59: the row that may adopt is one of two, and the laws give its record's slot and its approvals' sessions. -/
theorem adoptionNeedsEveryApproval : Obligations.AdoptionNeedsEveryApproval := by
  intro s t r g sessions generations h hr hg hnew
  obtain ⟨c, rest, hq, ⟨g', hg', hk⟩, ⟨p, rfl, hclose⟩ | ⟨p, rfl, happrove⟩⟩ | ⟨g', hr', -, hc⟩ :=
    (step_orderly h).adopts r g hr hg
  · obtain ⟨b, x, hx, rfl, ho, hno⟩ := hclose
    obtain ⟨g'', -, hr'', hs, -⟩ := generations.context b x hx
    obtain rfl := Option.some.inj (hg'.symm.trans hr'')
    refine .inl ⟨p, rest, x, b, hq, hx, rfl, hs.symm.trans hk, ho, fun q hm => ?_⟩
    by_contra hne
    exact nomatch hno.symm.trans (needsEntry_iff.2 ⟨q, hm, hne⟩)
  · obtain ⟨e, q, hq', hc, hp, ha, approved⟩ := happrove
    obtain ⟨g'', hr'', hs, -⟩ := generations.commit e q r hq' hc
    obtain rfl := Option.some.inj (hg'.symm.trans hr'')
    refine .inr ⟨p, rest, e, q, hq, hq', hc, hs.symm.trans hk, hp, ha, fun x hx hne => ?_⟩
    obtain ⟨n, hn⟩ := Option.isSome_iff_exists.1 (approved x hx hne)
    exact ⟨n, hn, (sessionLaw_iff.1 sessions).2.approval e q x n hq' hn⟩
  · exact nomatch (hnew g' hr').symm.trans hc

end Sys2Proof.Machine
end

section
/-! Changes and proposals: the opening and the resolution of a change, and APPROVE, VETO and WITHDRAW with their checks in
order (R82 to R95). -/

namespace Sys2Proof.Machine

/-! ### The opening (R82 to R84) -/

theorem isRetire_eq (c : Change) : c.isRetire = decide (c = .retire) := by cases c <;> rfl

/-- A change that waits for approvals stands in the lowest FREE entry (R83). -/
theorem openChange_of_needsEntry {s : State} {k : SlotIndex} {p : Port} {e : ProposalIndex} (c : Change) (n : Session)
    (hn : needsEntry (s.maskOf k (·.approvers)) p = true) (he : s.freeProposalIndex = some e) :
    s.openChange k c p n =
      (((s.setProposal e (some ⟨k, c, p, n, false, s.maskOf k (·.approvers),
          openingApprovals (s.maskOf k (·.approvers)) p n, s.time + s.inUse.approvalWindow⟩)).setSlot k
            { s.slot k with proposal := some e }).deliverWhere
          (fun q => PortSet.has (s.maskOf k (·.approvers)) q && q != p)
          ⟨.proposalOpened, k, s.numberOfChange c, .ofChange (decide (c = .retire)), some p⟩, .pending) := by
  simp only [State.openChange, hn, he, if_true, isRetire_eq]

/-- A change that no other port has to approve is adopted at once (R84). -/
theorem openChange_of_not_needsEntry {s : State} {k : SlotIndex} {p : Port} (c : Change) (n : Session)
    (hn : ¬needsEntry (s.maskOf k (·.approvers)) p = true) : s.openChange k c p n =
      ((s.adopt k c).announceChange k (s.maskOf k (·.readers)) (s.numberOfChange c), .adopted) := by
  simp only [State.openChange, if_neg hn]

/-- Settles O25: whether the opening needs an entry decides between its two outcomes. -/
theorem openingAChange : Obligations.OpeningAChange := by
  intro s k c p n approvers readers needs
  have needed : needsEntry approvers p = true ↔ needs := needsEntry_iff
  exact ⟨fun hw e hfree hlow => ⟨openingApprovals approvers p n, fun q => openingApprovals_getElem approvers p q n,
      openChange_of_needsEntry c n (needed.2 hw) (freeProposalIndex_eq_some.2 ⟨hfree, hlow⟩)⟩,
    fun hw => openChange_of_not_needsEntry c n (mt needed.1 hw)⟩

/-! ### The resolution (R90) -/

/-- PROPOSAL_RESOLVED to the proposer's session and to the captured set (R94). -/
def State.tellResolved (s : State) (q : Proposal) (number : GenNumber) (o : ProposalOutcome) : State :=
  s.deliverWhere (fun x => (x == q.proposer && s.isUnder x q.session && !q.proposerEnded) || PortSet.has q.approvers x)
    ⟨.proposalResolved, q.slot, number, .ofOutcome o, some q.proposer⟩

section
variable {s : State} {e : ProposalIndex} {q : Proposal} (hq : s.proposal e = some q)
include hq

theorem resolve_adopted : s.resolve e .adopted =
    ((((s.adopt q.slot q.change).clearProposal e q.slot).tellResolved q (s.numberOfChange q.change) .adopted
      ).announceChange q.slot (s.maskOf q.slot (·.readers)) (s.numberOfChange q.change)) := by
  simp only [State.resolve, hq, State.isProposer, BEq.comm (a := q.proposer)]
  rfl

/-- An outcome that is no adoption (R93). -/
theorem resolve_not_adopted {o : ProposalOutcome} (ho : o ≠ .adopted) : s.resolve e o =
    ((s.applyOutcome q.slot q.change o).clearProposal e q.slot).tellResolved q (s.numberOfChange q.change) o := by
  simp only [State.resolve, hq, State.isProposer, BEq.comm (a := q.proposer)]
  cases o with
  | adopted => exact absurd rfl ho
  | rejected | lapsed | withdrawn | pending => rfl

end

/-- A PENDING record is freed without a look at its slot (R8, R57). -/
theorem freeRecord_of_pending {s : State} {r : RecordIndex} {g : GenRecord} {c : Word} (hr : s.record r = some g)
    (hg : g.state = .pending c) (hb : g.blocks ≠ []) : s.freeRecord r = s.freed r g.blocks := by
  rw [(freeRecord_eq hr).2 fun ⟨hsup, _⟩ => by simp [hg, GenState.isSuperseded] at hsup, returnBlocks_of_ne_nil _ hb]
  rfl

/-- Settles O27: the outcome is applied, the references are cleared and the events delivered, in this order. -/
theorem resolutionOfAProposal : Obligations.ResolutionOfAProposal := by
  intro s e q hq readers number cleared told
  refine ⟨resolve_adopted hq, fun o ho => ?_⟩
  have resolved : s.resolve e o = told (cleared (s.applyOutcome q.slot q.change o)) o :=
    resolve_not_adopted hq (by rintro rfl; simp at ho)
  refine ⟨fun hc => ?_, fun r g c hc hr hg hb => ?_⟩
  · have applied : s.applyOutcome q.slot q.change o = s := by
      rw [hc]
      obtain rfl | rfl | rfl := ho <;> rfl
    rw [resolved, applied]
  · have applied : s.applyOutcome q.slot q.change o = s.freed r g.blocks := by
      rw [hc, ← freeRecord_of_pending hr hg hb]
      obtain rfl | rfl | rfl := ho <;> rfl
    rw [resolved, applied]
    rfl

/-! ### The checks of APPROVE and VETO (R85) -/

section
variable {s t : State} {p : Port} {k : CommandKind} {f : Frame} (h : s.claimCommand p k = some (f, t))
include h

theorem proposal_of_claimCommand (e : ProposalIndex) : t.proposal e = s.proposal e := by
  rw [claimCommand_frame h]
  rfl

theorem numberOfChange_of_claimCommand (c : Change) : t.numberOfChange c = s.numberOfChange c := by
  cases c with
  | commit r => simp only [State.numberOfChange, State.numberOf, record_of_claimCommand h]
  | retire => rfl

end

theorem slotNumberArgs_eq_some {kb : Byte} {k : SlotIndex} (hk : k.val = kb.toNat) (number : GenNumber) :
    slotNumberArgs ([kb] ++ wordBytes number) = some (k, number) := by
  simp only [wordBytes, List.cons_append, List.nil_append, slotNumberArgs, slotOf_eq_some.2 hk.symm, Option.map_some,
    wordOf_highByte_lowByte]

section
variable {s : State} {p : Port} {bs : List Byte}

theorem approverChecks_notAttached (ha : s.isAttached p = false) : s.approverChecks p bs = .error .notAttached := by
  have detached : s.currentSession p = none := by simpa [State.isAttached] using ha
  simp only [State.approverChecks, detached]

variable {n : Session} {k : SlotIndex} {number : GenNumber} (hn : s.currentSession p = some n)
  (hargs : slotNumberArgs bs = some (k, number))
include hn hargs

theorem approverChecks_noProposal (hk : (s.slot k).proposal = none) :
    s.approverChecks p bs = .error .noProposal := by
  simp only [State.approverChecks, hn, hargs, hk]

/-- The checks behind the proposal: the captured set, then the number. -/
theorem approverChecks_of_proposal {e : ProposalIndex} {q : Proposal} (hk : (s.slot k).proposal = some e)
    (hq : s.proposal e = some q) : s.approverChecks p bs =
      if !PortSet.has q.approvers p then .error .notApprover
      else if number ≠ s.numberOfChange q.change then .error .staleProposal
      else .ok (n, e, q) := by
  simp only [State.approverChecks, hn, hargs, hk, hq]

end

section
variable {s t : State} {p : Port} {f : Frame} {st : Status}

theorem approve_refuses (h : s.claimCommand p .approve = some (f, t)) (hc : t.approverChecks p f.payload = .error st) :
    answers (.approve p) s p f t st [] :=
  controlCommand_answer (body := approveBody p) h (by simp only [approveBody, hc]; rfl)

theorem veto_refuses (h : s.claimCommand p .veto = some (f, t)) (hc : t.approverChecks p f.payload = .error st) :
    answers (.veto p) s p f t st [] :=
  controlCommand_answer (body := vetoBody p) h (by simp only [vetoBody, hc]; rfl)

end

/-! ### APPROVE (R86) -/

/-- The approvals outstanding, counted (R86). -/
theorem outstanding_length (q : Proposal) : q.outstanding.length =
    (List.finRange 4).countP (fun x => q.approvers.getLsbD x.val && (q.approvals[x]).isNone) := by
  rw [Proposal.outstanding, ← List.countP_eq_length_filter]
  refine List.countP_congr fun x _ => ?_
  rw [Proposal.hasApproval, Option.not_isSome]
  rfl

/-- Settles O28: past the checks the approval is recorded, and the count of those outstanding decides. -/
theorem approveChecksAndEffect : Obligations.ApproveChecksAndEffect := by
  intro s t p f kb number h hf
  refine ⟨fun hn => ?_, fun ha hb => slot_out_of_range ha hf rfl h (by decide) hb, fun k n hk hn => ?_⟩
  · exact approve_refuses h (approverChecks_notAttached ((isAttached_of_claimCommand h p).trans hn))
  have session := (currentSession_of_claimCommand h p).trans (currentSession_eq_some.2 hn)
  have args : slotNumberArgs f.payload = some (k, number) := hf ▸ slotNumberArgs_eq_some hk number
  have slot := slot_of_claimCommand h k
  refine ⟨fun hq => approve_refuses h (approverChecks_noProposal session args (slot ▸ hq)), fun e q he hq => ?_⟩
  have checks := approverChecks_of_proposal session args (slot ▸ he) ((proposal_of_claimCommand h e).trans hq)
  rw [numberOfChange_of_claimCommand h] at checks
  refine ⟨fun (hp : PortSet.has q.approvers p = false) => approve_refuses h ?_,
    fun (hp : PortSet.has q.approvers p = true) hs => approve_refuses h ?_,
    fun (hp : PortSet.has q.approvers p = true) hs => ⟨_, rfl, ?_⟩⟩
  · simp [checks, hp]
  · simp [checks, hp, hs]
  · have passed : t.approverChecks p f.payload = .ok (n, e, q) := by simp [checks, hp, hs]
    rw [← approve_eq]
    intro left
    have count : (q.approve p n).outstanding.length = left := by
      rw [outstanding_length]
      simp only [left, approve_eq]
    refine ⟨fun h0 => controlCommand_answer (body := approveBody p) h ?_,
      fun h0 => controlCommand_answer (body := approveBody p) h ?_⟩
    · simp only [approveBody, passed, count, if_pos h0]
      rfl
    · simp only [approveBody, passed, count, if_neg h0]
      rfl

/-! ### VETO and WITHDRAW (R87, R88) -/

section
variable {s : State} {p : Port} {f : Frame} {k : SlotIndex} {n : Session}

theorem isProposer_iff (hn : (s.session p).state = .attached n) {q : Proposal} :
    s.isProposer q p = true ↔ q.proposer = p ∧ q.session = n ∧ q.proposerEnded = false := by
  simp only [State.isProposer, Bool.and_eq_true, beq_iff_eq, isUnder_iff, hn, SessionState.attached.injEq,
    Bool.not_eq_true', and_assoc, eq_comm (a := n)]

theorem withdrawBody_noProposal (ha : s.isAttached p = true) (hargs : slotArg f.payload = some k)
    (hk : (s.slot k).proposal = none) : withdrawBody p f s = refuse s .noProposal := by
  simp [withdrawBody, ha, hargs, hk]

/-- The check of WITHDRAW behind the proposal, and its effect. -/
theorem withdrawBody_of_proposal (ha : s.isAttached p = true) (hargs : slotArg f.payload = some k) {e : ProposalIndex}
    {q : Proposal} (hk : (s.slot k).proposal = some e) (hq : s.proposal e = some q) : withdrawBody p f s =
      if !s.isProposer q p then refuse s .notProposer
      else .answer (s.resolve e .withdrawn) .ok
        ([ProposalOutcome.withdrawn.code] ++ wordBytes (s.numberOfChange q.change)) := by
  simp [withdrawBody, ha, hargs, hk, hq]

end

/-- Settles O29: the checks of R85 stand before a VETO, and that of the proposer before a WITHDRAW. -/
theorem vetoAndWithdrawResolve : Obligations.VetoAndWithdrawResolve := by
  intro s t p f k n hn
  refine ⟨fun number h hf => ?_, fun h hf => ?_⟩
  · have session := (currentSession_of_claimCommand h p).trans (currentSession_eq_some.2 hn)
    have byte : k.val = (BitVec.ofNat 8 k.val).toNat := (slotOf_eq_some.1 (slotOf_ofNat k)).symm
    have args : slotNumberArgs f.payload = some (k, number) := hf ▸ slotNumberArgs_eq_some byte number
    have slot := slot_of_claimCommand h k
    refine ⟨fun hq => veto_refuses h (approverChecks_noProposal session args (slot ▸ hq)), fun e q he hq => ?_⟩
    have checks := approverChecks_of_proposal session args (slot ▸ he) ((proposal_of_claimCommand h e).trans hq)
    rw [numberOfChange_of_claimCommand h] at checks
    refine ⟨fun (hp : PortSet.has q.approvers p = false) => veto_refuses h ?_,
      fun (hp : PortSet.has q.approvers p = true) hs => veto_refuses h ?_,
      fun (hp : PortSet.has q.approvers p = true) hs => controlCommand_answer (body := vetoBody p) h ?_⟩
    · simp [checks, hp]
    · simp [checks, hp, hs]
    · have passed : t.approverChecks p f.payload = .ok (n, e, q) := by simp [checks, hp, hs]
      simp only [vetoBody, passed]
      rfl
  · have attached := (isAttached_of_claimCommand h p).trans (isAttached_iff.2 ⟨n, hn⟩)
    have current := currentSession_eq_some.1
      ((currentSession_of_claimCommand h p).trans (currentSession_eq_some.2 hn))
    have args : slotArg f.payload = some k := hf ▸ slotOf_ofNat k
    have slot := slot_of_claimCommand h k
    have answered {u : State} {st : Status} {pl : List Byte} (hb : withdrawBody p f t = .answer u st pl) :
        answers (.withdraw p) s p f u st pl := controlCommand_answer h hb
    refine ⟨fun hq => answered (withdrawBody_noProposal attached args (slot ▸ hq)), fun e q he hq => ?_⟩
    have checks := withdrawBody_of_proposal attached args (slot ▸ he) ((proposal_of_claimCommand h e).trans hq)
    rw [numberOfChange_of_claimCommand h] at checks
    refine ⟨fun hne => answered (checks.trans (if_pos ?_)), fun hp hs hended => answered (checks.trans (if_neg ?_))⟩
    · rw [Bool.not_eq_true', ← Bool.not_eq_true, isProposer_iff current]
      rintro ⟨hp, hs, hended⟩
      simp [hp, hs, hended] at hne
    · rw [Bool.not_eq_true', ← Bool.not_eq_true, not_not, isProposer_iff current]
      exact ⟨hp, hs, hended⟩

end Sys2Proof.Machine
end

section
/-! Leases: HOLD with its checks in order, RENEW and RELEASE (R102 to R108, R111). -/

namespace Sys2Proof.Machine

/-! ### The lease table -/

theorem leasesWhere_length (s : State) (x : Lease → Bool) :
    (s.leasesWhere x).length = (List.finRange 32).countP (fun e => (s.lease e).any x) :=
  List.countP_eq_length_filter.symm

theorem leasesWhere_isEmpty {s : State} {x : Lease → Bool} :
    (s.leasesWhere x).isEmpty = true ↔ ∀ e l, s.lease e = some l → x l = false := by
  simp [State.leasesWhere, Option.any_eq_false]

section
variable {s t : State} {p : Port} {k : CommandKind} {f : Frame} (h : s.claimCommand p k = some (f, t))
include h

theorem lease_of_claimCommand (e : LeaseIndex) : t.lease e = s.lease e := by rw [claimCommand_frame h]; rfl
theorem freeLeaseIndex_of_claimCommand : t.freeLeaseIndex = s.freeLeaseIndex := by rw [claimCommand_frame h]; rfl
theorem callersLease_of_claimCommand (q : Port) (x : SlotIndex) : t.callersLease q x = s.callersLease q x := by
  rw [claimCommand_frame h]; rfl

end

/-! ### HOLD (R103 to R105) -/

/-- HOLD behind its checks on the slot and the bounds of R102: the lowest FREE entry holds the lease. -/
def State.grantLease (s : State) (p : Port) (n : Session) (k : SlotIndex) (r : RecordIndex) : CommandResult :=
  match s.freeLeaseIndex with
  | none => refuse s .leaseFull
  | some e =>
    .answer ((s.setLease e (some ⟨p, n, k, r, s.time + s.inUse.leasePeriod⟩)).raiseReference r) .ok
      (wordBytes (s.numberOf r))

section
variable {s : State} (p : Port) (n : Session) (k : SlotIndex)

theorem grantLease_leaseFull (r : RecordIndex) (he : s.freeLeaseIndex = none) :
    s.grantLease p n k r = refuse s .leaseFull := by
  simp only [State.grantLease, he]

theorem grantLease_holds {r : RecordIndex} {e : LeaseIndex} {g : GenRecord} (he : s.freeLeaseIndex = some e)
    (hr : s.record r = some g) : s.grantLease p n k r =
      .answer ((s.setLease e (some ⟨p, n, k, r, s.time + s.inUse.leasePeriod⟩)).setRecord r
        (some { g with refCount := g.refCount + 1 })) .ok (wordBytes g.number) := by
  have raised := raiseReference_of_some
    (s := s.setLease e (some ⟨p, n, k, r, s.time + s.inUse.leasePeriod⟩)) hr
  simp only [State.grantLease, he, numberOf_of_some hr, raised]

end

section
variable {t : State} {p : Port} {f : Frame} {k : SlotIndex} {n : Session} (hn : t.currentSession p = some n)
  (hk : slotArg f.payload = some k)
include hn hk

theorem holdBody_notLive (hs : ∀ d r, (t.slot k).state ≠ .live d r) : holdBody p f t = refuse t .notLive := by
  simp only [holdBody, hn, hk]
  cases hv : (t.slot k).state with
  | vacant | defined d | retiring d => rfl
  | live d r => exact absurd hv (hs d r)

/-- The checks of HOLD behind the state of the slot (R104). -/
theorem holdBody_of_live {d : TableDef} {r : RecordIndex} (hs : (t.slot k).state = .live d r) : holdBody p f t =
    if !PortSet.has d.readers p then refuse t .noAccess
    else if !(t.leasesWhere (fun l => l.port == p && l.slot == k)).isEmpty then refuse t .leaseHeld
    else if t.inUse.leaseLimit ≤ (t.leasesWhere (fun l => l.port == p)).length then refuse t .leaseLimitReached
    else t.grantLease p n k r := by
  simp only [holdBody, hn, hk, hs]
  rfl

end

/-- Settles O30: past the state of the slot the checks stand in a row, and the table grants the lease or is full. -/
theorem holdChecksAndEffect : Obligations.HoldChecksAndEffect := by
  intro s t p f kb h hf
  have attached : t.isAttached p = s.isAttached p := isAttached_of_claimCommand h p
  have answered {u : State} {st : Status} {pl : List Byte} (hb : holdBody p f t = .answer u st pl) :
      answers (.hold p) s p f u st pl := controlCommand_answer h hb
  refine ⟨fun ha => ?_, fun ha hb => slot_out_of_range ha hf rfl h (by decide) hb, fun k n hk hn => ?_⟩
  · have detached : t.currentSession p = none := by simpa [State.isAttached] using attached.trans ha
    exact answered (by simp only [holdBody, detached]; rfl)
  have session := (currentSession_of_claimCommand h p).trans (currentSession_eq_some.2 hn)
  have arg : slotArg f.payload = some k := hf ▸ slotArg_eq_some hk
  have slot := slot_of_claimCommand h k
  refine ⟨fun hs => answered (holdBody_notLive session arg (slot ▸ hs)), fun d r hs => ?_⟩
  have checks := holdBody_of_live session arg (slot ▸ hs)
  have unheld : (t.leasesWhere (fun l => l.port == p && l.slot == k)).isEmpty = true ↔
      ∀ e l, s.lease e = some l → l.port = p → l.slot ≠ k := by
    rw [leasesWhere_isEmpty]
    simp [lease_of_claimCommand h]
  simp only [leasesWhere_length t (fun l => l.port == p), lease_of_claimCommand h, inUse_of_claimCommand h] at checks
  refine ⟨fun (hd : PortSet.has d.readers p = false) => answered ?_, fun (hd : PortSet.has d.readers p = true) =>
    ⟨fun ⟨e, l, hl, hp, hsl⟩ => answered ?_, fun hno => ?_⟩⟩
  · simp [checks, hd, refuse]
  · have held := mt unheld.1 (fun hno => hno e l hl hp hsl)
    simp only [checks, hd, held]
    rfl
  intro held
  have bounded : holdBody p f t =
      if s.inUse.leaseLimit ≤ held then refuse t .leaseLimitReached else t.grantLease p n k r := by
    rw [checks, hd, unheld.2 hno]
    rfl
  refine ⟨fun hlim => answered (bounded.trans (if_pos hlim)), fun hlim hfull => answered ?_,
    fun e g hlim hfree hlow hr => answered ?_⟩
  all_goals rw [bounded, if_neg (Nat.not_le.2 hlim)]
  · have full := (freeLeaseIndex_of_claimCommand h).trans (freeLeaseIndex_eq_none.2 hfull)
    exact grantLease_leaseFull p n k r full
  · have entry := (freeLeaseIndex_of_claimCommand h).trans (freeLeaseIndex_eq_some.2 ⟨hfree, hlow⟩)
    rw [grantLease_holds p n k entry ((record_of_claimCommand h r).trans hr), time_of_claimCommand h,
      inUse_of_claimCommand h]

/-! ### RENEW and RELEASE (R107, R108, R111) -/

theorem removeLease_of_some {s : State} {e : LeaseIndex} {l : Lease} (hl : s.lease e = some l) :
    s.removeLease e = (s.setLease e none).dropReference l.record := by
  simp only [State.removeLease, hl]

section
variable {t : State} {p : Port} {f : Frame} {k : SlotIndex} (ha : t.isAttached p = true)
  (hk : slotArg f.payload = some k)
include ha hk

theorem renewBody_noLease (hl : t.callersLease p k = none) : renewBody p f t = refuse t .noLease := by
  simp [renewBody, ha, hk, hl]

theorem releaseBody_noLease (hl : t.callersLease p k = none) : releaseBody p f t = refuse t .noLease := by
  simp [releaseBody, ha, hk, hl]

variable {e : LeaseIndex} {l : Lease} {g : GenRecord} (hl : t.callersLease p k = some (e, l))
  (hr : t.record l.record = some g)
include hl hr

theorem renewBody_of_lease : renewBody p f t =
    .answer (t.setLease e (some { l with expiry := t.time + t.inUse.leasePeriod })) .ok
      (wordBytes g.number ++ [if (t.slot k).state.current = some l.record then 1 else 0]) := by
  simp [renewBody, ha, hk, hl, numberOf_of_some hr, flagByte]

theorem releaseBody_of_lease : releaseBody p f t =
    .answer ((t.setLease e none).dropReference l.record) .ok (wordBytes g.number) := by
  obtain ⟨entry, -⟩ := callersLease_eq_some hl
  simp [releaseBody, ha, hk, hl, numberOf_of_some hr, removeLease_of_some entry]

end

/-- Settles O31: both commands turn on the caller's lease, which the taking of the command leaves as it was. -/
theorem renewAndRelease : Obligations.RenewAndRelease := by
  intro s t p f k ha hf
  have args : slotArg f.payload = some k := hf ▸ slotOf_ofNat k
  refine ⟨fun h => ?_, fun h => ?_⟩
  all_goals
    have attached := (isAttached_of_claimCommand h p).trans ha
    have lease := callersLease_of_claimCommand h p k
  · refine ⟨fun hl => controlCommand_answer h (renewBody_noLease attached args (lease.trans hl)),
      fun e l g hl hr => controlCommand_answer (body := renewBody p) h ?_⟩
    rw [renewBody_of_lease attached args (lease.trans hl) ((record_of_claimCommand h _).trans hr),
      time_of_claimCommand h, inUse_of_claimCommand h, slot_of_claimCommand h]
  · exact ⟨fun hl => controlCommand_answer h (releaseBody_noLease attached args (lease.trans hl)),
      fun e l g hl hr => controlCommand_answer h
        (releaseBody_of_lease attached args (lease.trans hl) ((record_of_claimCommand h _).trans hr))⟩

end Sys2Proof.Machine
end

section
/-! Sessions: what a teardown removes and in which order, ATTACH, DETACH and the two claims of a teardown, and the
commands that need a session (R114, R116 to R123). -/

namespace Sys2Proof.Machine

/-! ### What the records and the builds do not look at -/

/-- The state with other leases, session entries and ports: no reference dropped and no build discarded looks at
them. -/
def State.besides (s : State) (leases : Vector (Option Lease) 32) (sessions : Vector SessionEntry 4)
    (ports : Vector PortState 4) : State :=
  { s with leases := leases, sessions := sessions, ports := ports }

section
variable (s : State) (leases : Vector (Option Lease) 32) (sessions : Vector SessionEntry 4)
  (ports : Vector PortState 4)

theorem freeRecord_besides (r : RecordIndex) :
    (s.besides leases sessions ports).freeRecord r = (s.freeRecord r).besides leases sessions ports := by
  have returned (bs : List BlockIndex) : (s.besides leases sessions ports).returnBlocks bs =
      (s.returnBlocks bs).besides leases sessions ports := by
    unfold State.returnBlocks
    split <;> rfl
  have record : (s.besides leases sessions ports).record r = s.record r := rfl
  unfold State.freeRecord
  rw [record]
  split
  · rfl
  · next g _ =>
    dsimp only
    rw [returned]
    generalize s.returnBlocks g.blocks = u
    exact Eq.symm (apply_ite (fun v : State => v.besides leases sessions ports) _ _ _)

theorem dropReference_besides (r : RecordIndex) :
    (s.besides leases sessions ports).dropReference r = (s.dropReference r).besides leases sessions ports := by
  have record : (s.besides leases sessions ports).record r = s.record r := rfl
  unfold State.dropReference
  rw [record]
  split
  · rfl
  · next g _ =>
    have freed := freeRecord_besides (s.setRecord r (some { g with refCount := g.refCount - 1 })) leases sessions ports
      r
    dsimp only
    split
    · exact freed
    · rfl

theorem discardBuild_besides (h : Handle) :
    (s.besides leases sessions ports).discardBuild h = (s.discardBuild h).besides leases sessions ports := by
  have context : (s.besides leases sessions ports).context h = s.context h := rfl
  unfold State.discardBuild
  rw [context]
  split
  · rfl
  · rw [freeRecord_besides]
    rfl

theorem foldl_discardBuild_besides (hs : List Handle) :
    hs.foldl State.discardBuild (s.besides leases sessions ports) =
      (hs.foldl State.discardBuild s).besides leases sessions ports := by
  induction hs generalizing s with
  | nil => rfl
  | cons h hs ih => rw [List.foldl_cons, discardBuild_besides, ih, List.foldl_cons]

end

/-! ### The removal of leases (R114) -/

/-- The reference of a lease entry that is in use in `s` is dropped. -/
def State.dropLeaseOf (s u : State) (e : LeaseIndex) : State :=
  match s.lease e with
  | some l => u.dropReference l.record
  | none => u

theorem dropLeaseOf_besides (s u : State) (e : LeaseIndex) (leases : Vector (Option Lease) 32)
    (sessions : Vector SessionEntry 4) (ports : Vector PortState 4) :
    s.dropLeaseOf (u.besides leases sessions ports) e = (s.dropLeaseOf u e).besides leases sessions ports := by
  unfold State.dropLeaseOf
  split
  · exact dropReference_besides ..
  · rfl

/-- A lease that ends is its entry FREE, and its reference dropped. -/
theorem removeLease_eq (s : State) (e : LeaseIndex) :
    s.removeLease e = (s.dropLeaseOf s e).besides (s.leases.set e none) s.sessions s.ports := by
  cases hl : s.lease e with
  | some l =>
    simp only [State.removeLease, State.dropLeaseOf, hl]
    exact dropReference_besides s (s.leases.set e none) s.sessions s.ports l.record
  | none =>
    have free : s.setLease e none = s := by rw [← hl]; exact State.setLease_lease s e
    simp only [State.removeLease, State.dropLeaseOf, hl]
    exact free.symm

theorem foldl_dropLeaseOf_besides (s u : State) (es : List LeaseIndex) (leases : Vector (Option Lease) 32)
    (sessions : Vector SessionEntry 4) (ports : Vector PortState 4) :
    es.foldl s.dropLeaseOf (u.besides leases sessions ports) =
      (es.foldl s.dropLeaseOf u).besides leases sessions ports := by
  induction es generalizing u with
  | nil => rfl
  | cons e es ih => rw [List.foldl_cons, dropLeaseOf_besides, ih, List.foldl_cons]

/-- Leases that end, each of them once, drop the references that they held at first. -/
theorem foldl_removeLease_eq {s u : State} {es : List LeaseIndex} (hn : es.Nodup)
    (hu : ∀ e ∈ es, u.lease e = s.lease e) :
    es.foldl State.removeLease u =
      (es.foldl s.dropLeaseOf u).besides (es.foldl State.removeLease u).leases u.sessions u.ports := by
  induction es generalizing u with
  | nil => rfl
  | cons e es ih =>
    obtain ⟨he, hn⟩ := List.nodup_cons.1 hn
    obtain ⟨hue, hu⟩ := List.forall_mem_cons.1 hu
    have removed : u.removeLease e = (s.dropLeaseOf u e).besides (u.leases.set e none) u.sessions u.ports := by
      rw [removeLease_eq]
      simp only [State.dropLeaseOf, hue]
    have rest := ih hn (u := u.removeLease e) fun x hx => by
      rw [removeLease_lease_ite, if_neg (ne_of_mem_of_not_mem hx he), hu x hx]
    rw [List.foldl_cons, List.foldl_cons, rest]
    generalize (es.foldl State.removeLease (u.removeLease e)).leases = leases
    rw [removed, foldl_dropLeaseOf_besides]
    rfl

section
variable (s : State) (p : Port)

theorem leasesOf_nodup : (s.leasesOf p).Nodup := by
  refine List.nodup_flatMap.2 ⟨fun k _ => (List.nodup_finRange 32).filter _,
    (List.nodup_finRange 64).imp fun hne e hj hk => hne ?_⟩
  simp only [List.mem_filter, Option.any_eq_true, Bool.and_eq_true, beq_iff_eq] at hj hk
  obtain ⟨-, l, hl, -, rfl⟩ := hj
  obtain ⟨-, m, hm, -, rfl⟩ := hk
  exact congrArg Lease.slot (Option.some.inj (hl.symm.trans hm))

/-- The leases of a port stand in ascending order of slot (R114). -/
theorem leasesOf_ascending : (s.leasesOf p).Pairwise fun a b =>
    ∀ l m, s.lease a = some l → s.lease b = some m → l.slot ≤ m.slot := by
  have slot {k : SlotIndex} {e : LeaseIndex} {l : Lease} (he : e ∈ (List.finRange 32).filter (fun e =>
      (s.lease e).any (fun l => l.port == p && l.slot == k))) (hl : s.lease e = some l) : l.slot = k := by
    simp only [List.mem_filter, hl, Option.any_some, Bool.and_eq_true, beq_iff_eq] at he
    exact he.2.2
  refine List.pairwise_flatMap.2 ⟨fun k _ => List.pairwise_of_forall_mem_list fun a ha b hb l m hl hm => ?_,
    (List.pairwise_lt_finRange 64).imp fun hjk a ha b hb l m hl hm => ?_⟩
  · rw [slot ha hl, slot hb hm]
  · rw [slot ha hl, slot hb hm]
    exact hjk.le

/-- A port's leases are those of the table that name it. -/
theorem leasesOf_length : (s.leasesOf p).length = (s.leasesWhere (fun l => l.port == p)).length := by
  refine List.Perm.length_eq ((List.perm_ext_iff_of_nodup (leasesOf_nodup s p) ((List.nodup_finRange 32).filter _)).2
    fun e => ?_)
  rw [mem_leasesOf]
  simp [Option.any_eq_true]

end

/-! ### Blocks that return: they join the tail of the free list (R6, R8) -/

section
variable (s : State)

theorem freeRecord_freeList_grows (r : RecordIndex) : s.freeList <+: (s.freeRecord r).freeList := by
  obtain ⟨-, h⟩ | ⟨g, -, h | ⟨-, -, h⟩⟩ := freeRecord_cases s r <;> rw [h]
  all_goals
    rw [returnBlocks_frame]
    exact ⟨_, rfl⟩

theorem dropReference_freeList_grows (r : RecordIndex) : s.freeList <+: (s.dropReference r).freeList := by
  unfold State.dropReference
  split
  · exact ⟨[], List.append_nil _⟩
  · next g _ =>
    dsimp only
    split
    · exact freeRecord_freeList_grows (s.setRecord r (some { g with refCount := g.refCount - 1 })) r
    · exact ⟨[], List.append_nil _⟩

theorem dropLeaseOf_freeList_grows (u : State) (e : LeaseIndex) : u.freeList <+: (s.dropLeaseOf u e).freeList := by
  unfold State.dropLeaseOf
  split
  · exact dropReference_freeList_grows ..
  · exact ⟨[], List.append_nil _⟩

theorem discardBuild_freeList_grows (h : Handle) : s.freeList <+: (s.discardBuild h).freeList := by
  unfold State.discardBuild
  split
  · exact ⟨[], List.append_nil _⟩
  · exact freeRecord_freeList_grows s _

end

/-! ### The teardown (R122) -/

section
variable (s : State) (p : Port) (n : Session)

/-- The references of a port's leases dropped, then its builds under a session discarded (R122 steps 1 and 2). -/
def State.emptied (s : State) (p : Port) (n : Session) : State :=
  (s.buildsOf p n).foldl State.discardBuild ((s.leasesOf p).foldl s.dropLeaseOf s)

theorem emptied_freeList_grows : s.freeList <+: (s.emptied p n).freeList := by
  refine foldl_induction (fun t : State => s.freeList <+: t.freeList) _ _ _ ?_ fun t h _ ht =>
    ht.trans (discardBuild_freeList_grows t h)
  exact foldl_induction (fun t : State => s.freeList <+: t.freeList) _ _ _ ⟨[], List.append_nil _⟩ fun t e _ ht =>
    ht.trans (dropLeaseOf_freeList_grows s t e)

/-- A teardown leaves the records, the slots, the free list and the arm state of STORE_LOW as the dropped references and
the discarded builds leave them. -/
theorem teardown_pool :
    (s.teardown p n).records = (s.emptied p n).records ∧ (s.teardown p n).slots = (s.emptied p n).slots
      ∧ (s.teardown p n).freeList = (s.emptied p n).freeList
      ∧ (s.teardown p n).storeLowArmed = (s.emptied p n).storeLowArmed := by
  have released := foldl_removeLease_eq (leasesOf_nodup s p) (u := s) fun _ _ => rfl
  have builds : ((s.leasesOf p).foldl State.removeLease s).buildsOf p n = s.buildsOf p n := by
    simp only [State.buildsOf, State.context, foldl_removeLease_frame]
  simp only [State.teardown, builds]
  rw [released, foldl_discardBuild_besides]
  exact ⟨rfl, rfl, rfl, rfl⟩

end

/-- Settles O11: each table after the teardown, and the pool as the removals leave it. -/
theorem teardownRemovesSession : Obligations.TeardownRemovesSession := by
  intro s p n
  obtain ⟨records, slots, freeList, armed⟩ := teardown_pool s p n
  obtain ⟨blocks, joined⟩ := emptied_freeList_grows s p n
  refine ⟨_, rfl, fun e => ?_, fun h => ?_, teardown_proposal s p n, ⟨blocks, freeList.trans joined.symm⟩,
    ⟨s.leasesOf p, s.buildsOf p n, leasesOf_nodup s p, fun e => mem_leasesOf s p, leasesOf_ascending s p,
      (List.pairwise_lt_finRange 4).filter _, fun h => mem_buildsOf s p n, records, slots, freeList, armed⟩,
    teardown_frame s p n⟩
  · simp only [teardown_lease, mem_leasesOf]
    cases s.lease e <;> simp [Option.filter]
  · simp only [teardown_context, mem_buildsOf]
    cases s.context h with
    | none => simp
    | some c => by_cases hc : c.owner = p ∧ c.session = n <;> simp [Option.filter, hc]

/-! ### ATTACH (R116 to R118) -/

/-- The session indication that an entry hands to its port (R116). -/
def SessionState.isAttached : SessionState → Bool
  | .attached _ => true
  | .detached | .ending _ => false

theorem setSession_eq (s : State) (p : Port) (x : SessionEntry) :
    s.setSession p x = { s.setPort p { s.port p with attached := x.state.isAttached } with
      sessions := s.sessions.set p x } := rfl

theorem session_of_claimCommand {s t : State} {p : Port} {k : CommandKind} {f : Frame}
    (h : s.claimCommand p k = some (f, t)) (q : Port) : t.session q = s.session q := by rw [claimCommand_frame h]; rfl

/-- Settles O9: the state of the entry decides, and the taking of the command leaves the entry as it was. -/
theorem attachBeginsSession : Obligations.AttachBeginsSession := by
  intro s t p f h
  have session := session_of_claimCommand h p
  have limits := inUse_of_claimCommand h
  refine ⟨fun hs => controlCommand_answer (body := attachBody p) h ?_,
    fun hs => controlCommand_answer (body := attachBody p) h ?_⟩
  · simp only [attachBody, session, hs, limits, setSession_eq]
    rfl
  · unfold attachBody
    split
    · rfl
    · rfl
    · next hd => exact absurd (session ▸ hd) hs

/-! ### DETACH (R120) -/

section
variable (s : State) (p : Port) (n : Session)

theorem foldl_removeLease_besides (es : List LeaseIndex) (sessions : Vector SessionEntry 4)
    (ports : Vector PortState 4) :
    es.foldl State.removeLease (s.besides s.leases sessions ports) =
      (es.foldl State.removeLease s).besides (es.foldl State.removeLease s).leases sessions ports := by
  induction es generalizing s with
  | nil => rfl
  | cons e es ih =>
    have removed : (s.besides s.leases sessions ports).removeLease e =
        (s.removeLease e).besides (s.removeLease e).leases sessions ports := by
      rw [removeLease_eq, removeLease_eq]
      show (s.dropLeaseOf (s.besides s.leases sessions ports) e).besides (s.leases.set e none) sessions ports = _
      rw [dropLeaseOf_besides]
      rfl
    rw [List.foldl_cons, List.foldl_cons, removed, ih]

/-- A teardown looks at no session entry and at no port (R122). -/
theorem teardown_besides (sessions : Vector SessionEntry 4) (ports : Vector PortState 4) :
    (s.besides s.leases sessions ports).teardown p n =
      (s.teardown p n).besides (s.teardown p n).leases sessions ports := by
  have leasesOf : (s.besides s.leases sessions ports).leasesOf p = s.leasesOf p := rfl
  simp only [State.teardown, leasesOf, foldl_removeLease_besides]
  generalize (s.leasesOf p).foldl State.removeLease s = u
  have buildsOf : (u.besides u.leases sessions ports).buildsOf p n = u.buildsOf p n := rfl
  rw [buildsOf, foldl_discardBuild_besides, ← (foldl_discardBuild_frame (u.buildsOf p n) u).1]
  rfl

/-- The entry that a port's session ends with, whatever the entry during its teardown. -/
theorem setSession_teardown_setSession (x y : SessionEntry) :
    ((s.setSession p x).teardown p n).setSession p y =
      { (s.teardown p n).setPort p { s.port p with attached := y.state.isAttached } with
        sessions := s.sessions.set p y } := by
  have torn := teardown_besides s p n (s.setSession p x).sessions (s.setSession p x).ports
  have ports : (s.teardown p n).ports = s.ports := by rw [teardown_frame]
  refine (congrArg (State.setSession · p y) torn).trans ?_
  simp [setSession_eq, State.besides, State.setPort, State.port, ports]

end

/-- DETACH as carried out on an attached port, the counts by how the tables stand before it. -/
theorem detachBody_of_attached {s : State} {p : Port} {n : Session} (f : Frame) (hn : s.currentSession p = some n) :
    detachBody p f s = .answer
      { (s.teardown p n).setPort p { s.port p with attached := false } with
        sessions := s.sessions.set p { s.session p with state := .detached, teardownPending := false } } .ok
      [n, BitVec.ofNat 8 (s.leasesWhere (fun l => l.port == p)).length,
       BitVec.ofNat 8 ((List.finRange 4).countP (fun h => (s.context h).any (fun c => c.owner == p && c.session == n))),
       BitVec.ofNat 8 ((List.finRange 8).countP (fun e => (s.proposal e).any (fun q => q.approvals[p] == some n)))] := by
  simp only [detachBody, hn, setSession_teardown_setSession, leasesOf_length, List.countP_eq_length_filter]
  rfl

theorem detachBody_notAttached {s : State} {p : Port} (f : Frame) (hn : s.currentSession p = none) :
    detachBody p f s = refuse s .notAttached := by
  simp only [detachBody, hn]

/-- Settles O10: the body tears down the state in which the command is carried out, whose tables are those before its
taking. -/
theorem detachEndsSession : Obligations.DetachEndsSession := by
  intro s t p f h
  have session := currentSession_of_claimCommand h p
  refine ⟨fun n hn => ⟨_, rfl, controlCommand_answer (body := detachBody p) h ?_⟩,
    fun hn => controlCommand_answer (body := detachBody p) h (detachBody_notAttached f ?_)⟩
  · rw [detachBody_of_attached f (session.trans (currentSession_eq_some.2 hn)), session_of_claimCommand h]
    simp only [leasesWhere_length, lease_of_claimCommand h, context_of_claimCommand h, proposal_of_claimCommand h]
  · rw [session]
    exact Option.eq_none_iff_forall_ne_some.2 fun n h => hn n (currentSession_eq_some.1 h)

/-! ### Teardown requests and pending teardowns (R121, R122) -/

/-- Settles O12: a request is taken as the entry says, and the teardown that waits on the lowest port is the next. -/
theorem teardownRequestAndPendingTeardown : Obligations.TeardownRequestAndPendingTeardown := by
  intro s p
  refine ⟨fun rest hc hr => ?_, fun n hc hs hp hlow => ?_⟩
  · have taken : exec (.teardownRequest p) s = .next ({ s with requests := rest }.takeRequest p) := by
      show execTeardownRequest p s = _
      simp only [execTeardownRequest, hc, hr, if_true]
    have session : ({ s with requests := rest } : State).session p = s.session p := rfl
    refine ⟨fun n hs => ?_, fun n hs => ?_, fun hs => ?_⟩ <;> rw [taken, State.takeRequest, session, hs]
    · rfl
    · rfl
  · have lowest : s.teardownNext = some p := find?_finRange_eq_some.2
      ⟨teardownWaits_iff.2 ⟨⟨n, hs⟩, hp⟩, fun q hq => Bool.eq_false_iff.2 fun hw => by
        obtain ⟨⟨m, hm⟩, pending⟩ := teardownWaits_iff.1 hw
        exact Bool.false_ne_true ((hlow q hq m hm).symm.trans pending)⟩
    have ports : (s.teardown p n).ports = s.ports := by rw [teardown_frame]
    have sessions : (s.teardown p n).sessions = s.sessions := by rw [teardown_frame]
    show execPendingTeardown p s = _
    simp only [execPendingTeardown, hc, lowest, State.finishTeardown, hs, setSession_eq, State.signalTeardownDone,
      State.updPort]
    simp [State.setPort, State.port, State.session, ports, sessions, SessionState.isAttached]

/-! ### Commands without a session (R119) -/

/-- A control command that needs a session is refused without one, by the first of its checks. -/
theorem controlRow_notAttached {s t : State} {p : Port} {f : Frame} {c : Instr} {k : CommandKind}
    (ha : s.isAttached p = false) (hc : controlRow c = some (p, k))
    (hk : k ∉ [CommandKind.attach, .readOptions, .storeInfo]) (h : s.claimCommand p k = some (f, t)) :
    answers c s p f t .notAttached [] := by
  have ha : t.isAttached p = false := (isAttached_of_claimCommand h p).trans ha
  have unattached : (!t.isAttached p) = true := by rw [ha]; rfl
  have no_session : t.currentSession p = none := by simpa [State.isAttached] using ha
  have checks := approverChecks_notAttached (bs := f.payload) ha
  cases c with
  | defineTable | tableInfo | appendPoints | cancelBuild | withdraw | renew | release | readPoints | programOption
  | closeProvisioning => cases hc; exact controlCommand_answer h (if_pos unattached)
  | detach => cases hc; exact controlCommand_answer h (detachBody_notAttached f no_session)
  | proposeRetire => cases hc; exact controlCommand_answer h (by simp only [proposeRetireBody, no_session]; rfl)
  | openBuild => cases hc; exact controlCommand_answer h (by simp only [openBuildBody, no_session]; rfl)
  | closeBuild => cases hc; exact controlCommand_answer h (by simp only [closeBuildBody, no_session]; rfl)
  | hold => cases hc; exact controlCommand_answer h (by simp only [holdBody, no_session]; rfl)
  | approve => cases hc; exact controlCommand_answer h (by simp only [approveBody, checks]; rfl)
  | veto => cases hc; exact controlCommand_answer h (by simp only [vetoBody, checks]; rfl)
  | attach | readOptions | storeInfo => cases hc; exact absurd hk (by decide)
  | lookup | lookupBatch | burnCompletion | laneGrant | captureClaim | releaseClaim | teardownRequest | pendingTeardown
  | buildIdleExpiry | proposalExpiry | leaseExpiry | post | fetch | refetch | drain | status | unknownTransactionKind
  | prstnAsserted | prstnReleased | rstnAsserted | rstnReleased | powerOn | coldStartUp | warmStartUp => cases hc

/-- Settles O5: the session is the first check of a control command, and of the capture claim of a lookup. -/
theorem sessionIsRequired : Obligations.SessionIsRequired := by
  intro s t p f hn
  have detached : s.isAttached p = false := Bool.eq_false_iff.2 fun ha => by
    obtain ⟨n, hs⟩ := isAttached_iff.1 ha
    exact hn n hs
  refine ⟨fun c k hc ha ho hi h => controlRow_notAttached detached hc (by simp [ha, ho, hi]) h,
    fun l w hc hl hw hp => ?_⟩
  subst hp
  show execCaptureClaim l s = _
  simp only [execCaptureClaim, hc, hl, hw, takeCapture_of_error l (captureChecks_notAttached detached)]

end Sys2Proof.Machine
end

section
/-! The dispatch of control commands: which command is the next claim of the Table Manager, where it is taken from, what
an empty queue does, and the arrivals at a port (R130 to R136, R151, R152, R158, R163). -/

namespace Sys2Proof.Machine

/-! ### What stands before a control command (R134) -/

theorem carrying_eq_none {s : State} : s.carrying = none ↔
    ∀ q e, (s.port q).inExec = some e → e.frame.kind.isLookup = true ∨ ∃ b, s.burn = some b ∧ b.port = q := by
  rw [State.carrying, allPorts, find?_finRange_eq_none]
  refine forall_congr' fun q => ?_
  cases (s.port q).inExec with
  | none => simp
  | some e => cases hl : e.frame.kind.isLookup <;> simp [Option.any_eq_true, hl]

theorem overdue_eq_false {s : State} : s.overdue = false ↔ ∀ d ∈ s.deadlines, s.time ≤ d := by
  simp [State.overdue, List.any_eq_false]

theorem overdue_eq_true {s : State} : s.overdue = true ↔ ∃ d ∈ s.deadlines, d < s.time := by
  simp [State.overdue, List.any_eq_true]

/-- When no claim of the first two places stands before a teardown or a command. -/
theorem takesTeardowns_iff {s : State} : s.takesTeardowns = true ↔
    s.phase = .running ∧ s.carrying = none ∧ s.requests = [] ∧ s.overdue = false := by
  simp [State.takesTeardowns, State.takesExpiries, State.takesClaims, State.isRunning, and_assoc]

theorem controlEligible_iff {s : State} {p : Port} : s.controlEligible p = true ↔
    s.isEnabled p = true ∧ (s.port p).resetting = false ∧ (s.port p).inExec = none
      ∧ ∃ f, (s.port p).cmdQueue.head? = some f ∧ f.kind.isLookup = false := by
  simp [State.controlEligible, State.mayPass, Option.any_eq_true, and_assoc]

theorem nextCommand_iff {s : State} {p : Port} {f : Frame} : s.nextCommand p = some f ↔
    s.controlChoice = some p ∧ (s.port p).cmdQueue.head? = some f ∧ s.takesCommand p f = true := by
  simp [State.nextCommand, Option.filter_eq_some_iff]

/-! ### Commands that a pending teardown may follow (R51, R98, R121, R126) -/

/-- The payload begins with the byte of the slot. -/
def Frame.namesSlot (f : Frame) (k : SlotIndex) : Prop := ∃ b rest, f.payload = b :: rest ∧ b.toNat = k.val

/-- The command answers that its change is adopted. -/
def CommandResult.adopts (r : CommandResult) : Prop := ∃ u rest, r = .answer u .ok (0x01 :: rest)

/-- The command, carried out now, makes an adoption on the slot. -/
def State.adoptsOn (s : State) (p : Port) (f : Frame) (k : SlotIndex) : Prop :=
  (f.kind = .approve ∧ f.namesSlot k ∧ (approveBody p f s).adopts)
  ∨ (f.kind = .proposeRetire ∧ f.namesSlot k ∧ (proposeRetireBody p f s).adopts)
  ∨ (f.kind = .closeBuild ∧ (closeBuildBody p f s).adopts
    ∧ ∃ b rest h c, f.payload = b :: rest ∧ b.toNat = h.val ∧ s.context h = some c ∧ c.slot = k)

theorem slotOf_head_eq_some {f : Frame} {k : SlotIndex} : f.payload.head?.bind slotOf = some k ↔ f.namesSlot k := by
  cases h : f.payload with
  | nil => simp [Frame.namesSlot, h]
  | cons b rest => simp [Frame.namesSlot, h, slotOf_eq_some]

theorem slot_of_handle_head_eq_some {s : State} {f : Frame} {k : SlotIndex} :
    ((f.payload.head?.bind handleOf).bind s.context).map (·.slot) = some k ↔
      ∃ b rest h c, f.payload = b :: rest ∧ b.toNat = h.val ∧ s.context h = some c ∧ c.slot = k := by
  cases h : f.payload with
  | nil => simp
  | cons b rest => simp [Option.bind_eq_some_iff, handleOf_eq_some, and_assoc]

/-- An adoption made now is one on the slot that the command concerns. -/
theorem adoptsOn_iff {s : State} {p : Port} {f : Frame} {k : SlotIndex} :
    s.adoptsOn p f k ↔ s.slotConcerned f = some k ∧ s.adoptsNow p f = true := by
  have adopts (r : CommandResult) : r.isAdoption = true ↔ r.adopts := isAdoption_iff
  cases hk : f.kind with
  | approve | proposeRetire =>
    simp [State.adoptsOn, State.slotConcerned, State.adoptsNow, hk, slotOf_head_eq_some, adopts]
  | closeBuild =>
    simp only [State.adoptsOn, State.slotConcerned, State.adoptsNow, hk, slot_of_handle_head_eq_some, adopts]
    simp [and_comm]
  | attach | detach | defineTable | tableInfo | storeInfo | openBuild | appendPoints | cancelBuild | veto | withdraw
  | hold | renew | release | lookup | lookupBatch | readPoints | readOptions | programOption | closeProvisioning =>
    simp [State.adoptsOn, State.adoptsNow, hk]

/-- A TABLE_INFO concerns the slot that it names. -/
theorem tableInfo_concerns_iff {s : State} {f : Frame} {k : SlotIndex} :
    f.kind = .tableInfo ∧ f.namesSlot k ↔ s.slotConcerned f = some k ∧ f.kind = .tableInfo := by
  refine and_comm.trans (and_congr_left fun hk => ?_)
  rw [State.slotConcerned, hk]
  exact slotOf_head_eq_some.symm

theorem meetsTeardown_iff {s : State} {p q : Port} {f : Frame} : s.meetsTeardown p f q = true ↔ ∃ k,
    (s.adoptsOn p f k ∧ s.leasesOrApproves q k = true)
    ∨ (f.kind = .tableInfo ∧ f.namesSlot k ∧ (s.leasesOrApproves q k = true ∨ s.buildsOn q k = true)) := by
  rw [State.meetsTeardown, Option.any_eq_true]
  refine exists_congr fun k => ?_
  rw [← and_assoc, tableInfo_concerns_iff (s := s), adoptsOn_iff]
  simp only [Bool.or_eq_true, Bool.and_eq_true, decide_eq_true_eq]
  tauto

/-! ### The choice (R133) -/

/-- Settles O3: the choice of the arbiter, the eligibility of its port, and the claims of R134 each in its own terms. -/
theorem controlArbiterChoice : Obligations.ControlArbiterChoice := by
  intro s p f names leases approved builds adopts adoptsOn
  have before (q : Port) : (s.teardownWaits q = true → s.meetsTeardown p f q = true) ↔
      ∀ n, (s.session q).state = .ending n → (s.session q).teardownPending = true → ∃ k,
        (adoptsOn k ∧ (leases q k ∨ approved q k))
        ∨ (f.kind = .tableInfo ∧ names k ∧ (leases q k ∨ approved q k ∨ builds q k)) := by
    rw [teardownWaits_iff, meetsTeardown_iff]
    simp only [leasesOrApproves_iff, buildsOn_iff, or_assoc, and_imp, forall_exists_index]
    exact Iff.rfl
  rw [nextCommand_iff, State.controlChoice, find?_portsFrom_eq_some, takesCommand_iff, takesTeardowns_iff,
    carrying_eq_none, overdue_eq_false, forall_congr' before]
  constructor
  · rintro ⟨⟨i, hp, eligible, first⟩, head, ⟨running, idle, requests, deadlines⟩, teardowns⟩
    obtain ⟨enabled, normal, free, f', head', control⟩ := controlEligible_iff.1 eligible
    obtain rfl := Option.some.inj (head.symm.trans head')
    exact ⟨running, idle, requests, deadlines, teardowns, head, control, enabled, normal, free, i, hp, first⟩
  · rintro ⟨running, idle, requests, deadlines, teardowns, head, control, enabled, normal, free, i, hp, first⟩
    have eligible := controlEligible_iff.2 ⟨enabled, normal, free, f, head, control⟩
    exact ⟨⟨i, hp, eligible, first⟩, head, ⟨running, idle, requests, deadlines⟩, teardowns⟩

/-! ### The taking of a command (R130, R151) -/

theorem takeCommand_of_head {s : State} {p : Port} {f : Frame} (h : (s.port p).cmdQueue.head? = some f) :
    s.takeCommand p =
      { s.setPort p { s.port p with cmdQueue := (s.port p).cmdQueue.tail, inExec := some ⟨f, false⟩ } with
        controlPtr := p + 1 } := by
  obtain ⟨rest, hq⟩ := List.head?_eq_some_iff.1 h
  simp only [State.takeCommand, State.passHead, State.updPort, hq, List.tail_cons]

/-- The command carried on since before a port reset, or the one that the arbiter gives. -/
theorem claimCommand_iff {s t : State} {p : Port} {k : CommandKind} {f : Frame} :
    s.claimCommand p k = some (f, t) ↔
      f.kind = k
      ∧ ((s.carrying = some p ∧ (∃ d, (s.port p).inExec = some ⟨f, d⟩) ∧ t = s)
        ∨ (s.nextCommand p = some f ∧ t = s.takeCommand p)) := by
  constructor
  · intro h
    obtain ⟨kind, ⟨carried, ⟨e, he, rfl⟩, same⟩ | next⟩ := claimCommand_cases h
    · exact ⟨kind, .inl ⟨carried, ⟨e.discard, he⟩, same⟩⟩
    · exact ⟨kind, .inr next⟩
  · rintro ⟨rfl, ⟨carried, ⟨d, he⟩, rfl⟩ | ⟨next, rfl⟩⟩
    · simp [State.claimCommand, carried, he]
    · have idle := (takesTeardowns_iff.1 (takesCommand_iff.1 (nextCommand_iff.1 next).2.2).1).2.1
      simp [State.claimCommand, idle, next]

/-- Settles O4: the claim says which command it is, and without one a row of a control command waits. -/
theorem commandIsTakenFromItsPort : Obligations.CommandIsTakenFromItsPort := by
  refine ⟨fun s t p k f => ?_, fun c p k s hc hn => ?_⟩
  · rw [claimCommand_iff]
    refine and_congr_right fun _ => or_congr_right (and_congr_right fun next => ?_)
    rw [takeCommand_of_head (nextCommand_iff.1 next).2.1]
  · obtain ⟨body, -, exec_eq⟩ := controlRow_body hc
    rw [exec_eq, controlCommand, hn]

/-! ### The empty queue (R136, R177) -/

theorem step_of_empty {s : State} (h : s.pending = []) : step s = .next s.tick := by rw [step, h]

/-- Settles O2: the step is the tick, which the phase and the overdue deadlines decide. -/
theorem emptyQueueTicks : Obligations.EmptyQueueTicks := by
  intro s hp
  rw [step_of_empty hp]
  refine ⟨fun hr hd => ?_, fun hr hd => ?_, fun k hr => ?_, fun hw => ?_, fun hc => ?_⟩
  · simp [State.tick, hr, overdue_eq_false.2 hd]
  · simp [State.tick, hr, overdue_eq_true.2 hd]
  · simp [State.tick, hr]
  · simp [State.tick, hw]
  · have loaded : s.tick = { s.loadOptions with time := s.time + 1 } := by simp [State.tick, hc]
    refine ⟨_, rfl, ?_, fun p => ?_⟩
    · rw [loaded, loadOptions_frame]
    · have roled : s.tick.port p = PortState.roled (s.loadShadow.portEnable.getLsbD p.val) (s.port p) := by
        rw [loaded]
        exact loadOptions_port s p
      refine ⟨fun enabled => ?_, fun disabled => ?_⟩
      · rw [roled, enabled]
        rfl
      · rw [roled, disabled]
        rfl

/-! ### Arrivals at a port (R132, R152, R158, R163) -/

/-- The response of a command in execution without the discard mark. -/
theorem deliverResponse_of_kept {s : State} {p : Port} {f : Frame} (h : (s.port p).inExec = some ⟨f, false⟩)
    (r : Response) : s.deliverResponse p r =
      s.setPort p { s.port p with inExec := none, respQueue := (s.port p).respQueue ++ [r], attn := true } := by
  have waiting : ((s.port p).respQueue ++ [r]).isEmpty = false := by simp
  simp [State.deliverResponse, h, State.updPort, PortState.reevaluate, PortState.wantsAttention, waiting]

/-- Settles O8: the discard mark decides for a response, the session and the state of the port for an event record. -/
theorem arrivalsAtAPort : Obligations.ArrivalsAtAPort := by
  refine ⟨fun s p f r => ⟨fun kept => deliverResponse_of_kept kept r, fun discarded => ⟨fun attached => ?_,
    fun other => ?_⟩⟩, fun s p e => ⟨fun detached => ?_, fun resetting => ?_, fun attached normal => ?_⟩⟩
  · simp only [State.deliverResponse, discarded, attached]
    rfl
  · simp only [State.deliverResponse, discarded, other]
    rfl
  · have detached : ¬ s.isAttached p = true := fun ha => (isAttached_iff.1 ha).elim detached
    exact if_neg detached
  · have ignored : (s.port p).receive e = s.port p := if_pos resetting
    rw [State.deliverEvent, State.updPort, ignored, State.setPort_port, ite_self]
  · have delivered : s.deliverEvent p e = s.setPort p ((s.port p).receive e) := if_pos (isAttached_iff.2 attached)
    rw [delivered]
    obtain ⟨resetting, -⟩ | ⟨-, room, received⟩ | ⟨-, full, received⟩ := receive_cases (s.port p) e
    · exact absurd (normal.symm.trans resetting) (by decide)
    · exact ⟨fun _ => by rw [received], fun full => absurd room (Nat.not_lt.2 full)⟩
    · exact ⟨fun room => absurd room (Nat.not_lt.2 full), fun _ => by rw [received]⟩

end Sys2Proof.Machine
end

section
/-! Refused commands: what a control command answers and what it leaves behind when the status is not OK (R142, R63,
R74). -/

namespace Sys2Proof.Machine

/-! ### What a command leaves of its port -/

/-- Each port has the same command in execution and the same responses waiting. -/
structure KeepsResponses (s u : State) : Prop where
  inExec : ∀ q, (u.port q).inExec = (s.port q).inExec
  respQueue : ∀ q, (u.port q).respQueue = (s.port q).respQueue

namespace KeepsResponses

variable {s t u : State}

theorem of_ports (h : u.ports = s.ports) : KeepsResponses s u :=
  ⟨fun q => by rw [State.port, State.port, h], fun q => by rw [State.port, State.port, h]⟩

theorem refl (s : State) : KeepsResponses s s := of_ports rfl

theorem trans (h : KeepsResponses s t) (h' : KeepsResponses t u) : KeepsResponses s u :=
  ⟨fun q => (h'.inExec q).trans (h.inExec q), fun q => (h'.respQueue q).trans (h.respQueue q)⟩

theorem after (h : KeepsResponses t u) (ht : t.ports = s.ports) : KeepsResponses s u := (of_ports ht).trans h

theorem updPort {p : Port} {f : PortState → PortState} (he : (f (s.port p)).inExec = (s.port p).inExec)
    (hr : (f (s.port p)).respQueue = (s.port p).respQueue) : KeepsResponses s (s.updPort p f) := by
  have port (q : Port) : (s.updPort p f).port q = if q = p then f (s.port p) else s.port q :=
    State.port_setPort_ite ..
  constructor <;> intro q <;> rw [port] <;> split
  · next hq => rw [he, hq]
  · rfl
  · next hq => rw [hr, hq]
  · rfl

theorem setSession (s : State) (p : Port) (x : SessionEntry) : KeepsResponses s (s.setSession p x) :=
  after (t := { s with sessions := s.sessions.set p x }) (updPort rfl rfl) rfl

/-! Events join the event queue or set the lost flag (Table 86). -/

theorem deliverEvent (s : State) (p : Port) (e : EventRecord) : KeepsResponses s (s.deliverEvent p e) := by
  unfold State.deliverEvent
  split
  · obtain ⟨-, h⟩ | ⟨-, -, h⟩ | ⟨-, -, h⟩ := receive_cases (s.port p) e
    all_goals exact updPort (by rw [h]) (by rw [h])
  · exact refl s

theorem deliverWhere (s : State) (f : Port → Bool) (e : EventRecord) : KeepsResponses s (s.deliverWhere f e) :=
  foldl_induction (KeepsResponses s) _ _ s (refl s) fun t p _ ht => by
    split
    · exact ht.trans (deliverEvent t p e)
    · exact ht

/-! Changes, builds and sessions: beside the tables they deliver events (R82, R90, R17). -/

theorem openChange (s : State) (k : SlotIndex) (c : Change) (p : Port) (n : Session) :
    KeepsResponses s (s.openChange k c p n).1 := by
  unfold State.openChange
  dsimp only
  split
  · split
    · exact refl s
    · dsimp only
      exact after (deliverWhere ..) rfl
  · exact after (deliverWhere ..) (by rw [adopt_frame])

theorem resolve (s : State) (e : ProposalIndex) (o : ProposalOutcome) : KeepsResponses s (s.resolve e o) := by
  unfold State.resolve
  split
  · exact refl s
  · next q _ =>
    have applied : (s.applyOutcome q.slot q.change o).ports = s.ports := by rw [applyOutcome_frame]
    cases o with
    | adopted => exact after (trans (deliverWhere ..) (deliverWhere ..)) applied
    | rejected | lapsed | withdrawn | pending => exact after (deliverWhere ..) applied

theorem warnStoreLow (s : State) (before : Nat) : KeepsResponses s (s.warnStoreLow before) := by
  unfold State.warnStoreLow
  split
  · exact (deliverWhere s _ _).trans (of_ports rfl)
  · exact refl s

theorem restartIdle (s : State) (r : RecordIndex) : KeepsResponses s (s.restartIdle r) := by
  unfold State.restartIdle
  repeat' split
  all_goals exact of_ports rfl

theorem discardBuild (s : State) (h : Handle) : KeepsResponses s (s.discardBuild h) :=
  of_ports (by rw [discardBuild_frame])

theorem finishBuild (s : State) (h : Handle) (b : BuildContext) (g : GenRecord) (c : Word) :
    KeepsResponses s (s.finishBuild h b g c) := of_ports (by rw [finishBuild_eq, returnBlocks_frame]; rfl)

theorem teardown (s : State) (p : Port) (n : Session) : KeepsResponses s (s.teardown p n) :=
  of_ports (by rw [teardown_frame])

theorem removeLease (s : State) (e : LeaseIndex) : KeepsResponses s (s.removeLease e) :=
  of_ports (by rw [removeLease_frame])

theorem raiseReference (s : State) (r : RecordIndex) : KeepsResponses s (s.raiseReference r) := by
  unfold State.raiseReference
  split <;> exact of_ports rfl

end KeepsResponses

/-! ### What a refusal leaves (R142) -/

/-- A command of this kind that is refused with a status leaves the state in which it was taken, restarts the idle
deadline of the build it names (R74), or discards that build for a wrong checksum (R63). -/
inductive LeavesRefused (p : Port) (k : CommandKind) (t : State) : Status → State → Prop
  | unchanged (st : Status) : LeavesRefused p k t st t
  | restarted {h : Handle} {b : BuildContext} {st : Status} (hb : t.buildOf p h = some b)
      (hk : (k = .appendPoints ∧ (st = .buildOverrun ∨ st = .notMonotonic))
        ∨ (k = .closeBuild ∧ (st = .tooFewPoints ∨ st = .proposalFull))) :
      LeavesRefused p k t st (t.restartIdle b.record)
  | discarded {h : Handle} {b : BuildContext} (hb : t.buildOf p h = some b) (hk : k = .closeBuild) :
      LeavesRefused p k t .checksumMismatch (t.discardBuild h)

theorem LeavesRefused.keepsResponses {p : Port} {k : CommandKind} {t u : State} {st : Status}
    (h : LeavesRefused p k t st u) : KeepsResponses t u := by
  cases h with
  | unchanged => exact .refl t
  | restarted => exact .restartIdle ..
  | discarded => exact .discardBuild ..

/-- The command carried out on `t` leaves the responses to the delivery of its own, and is done or refused. -/
def CommandResult.Settled (p : Port) (k : CommandKind) (t : State) : CommandResult → Prop
  | .answer u st payload => KeepsResponses t u ∧ (st = .ok ∨ (payload = [] ∧ LeavesRefused p k t st u))
  | .handOver u => KeepsResponses t u
  | .fault _ => True

section
variable {p : Port} {k : CommandKind} {t u : State}

theorem CommandResult.Settled.ok {payload : List Byte} (h : KeepsResponses t u) :
    (CommandResult.answer u .ok payload).Settled p k t := ⟨h, .inl rfl⟩

theorem LeavesRefused.settled {st : Status} (h : LeavesRefused p k t st u) : (refuse u st).Settled p k t :=
  ⟨h.keepsResponses, .inr ⟨rfl, h⟩⟩

theorem refuse_settled (t : State) (st : Status) : (refuse t st).Settled p k t := (LeavesRefused.unchanged st).settled

/-- A check that refuses (R140). -/
theorem CommandResult.Settled.of_check {c : Prop} [Decidable c] {st : Status} {x : CommandResult}
    (h : x.Settled p k t) : (if c then refuse t st else x).Settled p k t := by
  split
  · exact refuse_settled ..
  · exact h

end

/-! ### The bodies -/

section
variable {k : CommandKind} (p : Port) (f : Frame) (s : State)

theorem attachBody_settled : (attachBody p f s).Settled p k s := by
  unfold attachBody
  split
  · exact refuse_settled ..
  · exact refuse_settled ..
  · exact .ok (.setSession ..)

theorem detachBody_settled : (detachBody p f s).Settled p k s := by
  unfold detachBody
  split
  · exact refuse_settled ..
  · exact .ok (((KeepsResponses.setSession ..).trans (.teardown ..)).trans (.setSession ..))

theorem defineTableBody_settled : (defineTableBody p f s).Settled p k s := by
  unfold defineTableBody
  refine .of_check ?_
  split
  · exact refuse_settled ..
  · exact .of_check (.of_check (.of_check (.ok (.of_ports rfl))))

theorem tableInfoBody_settled : (tableInfoBody p f s).Settled p k s := by
  unfold tableInfoBody
  refine .of_check ?_
  split
  · exact refuse_settled ..
  · exact .ok (.refl s)

theorem proposeRetireBody_settled : (proposeRetireBody p f s).Settled p k s := by
  unfold proposeRetireBody
  split
  · exact refuse_settled ..
  · split
    · exact refuse_settled ..
    · split
      · exact refuse_settled ..
      · exact refuse_settled ..
      all_goals exact .of_check (.of_check (.of_check (.of_check (.of_check (.ok (.openChange ..))))))

theorem storeInfoBody_settled : (storeInfoBody f s).Settled p k s := .ok (.refl s)

theorem readPointsBody_settled : (readPointsBody p f s).Settled p k s := by
  unfold readPointsBody
  refine .of_check ?_
  split
  · exact refuse_settled ..
  · split
    · exact refuse_settled ..
    · split
      · trivial
      · refine .of_check ?_
        split
        · trivial
        · exact .ok (.refl s)

/-- The resources of OPEN_BUILD in their order (R64). -/
theorem allotBuild_settled (n : Session) (a : OpenArgs) : (s.allotBuild p n a).Settled p k s := by
  unfold State.allotBuild
  split
  · exact refuse_settled ..
  · split
    · exact refuse_settled ..
    · exact .of_check (.ok (.after (.warnStoreLow ..) rfl))

theorem openBuildBody_settled : (openBuildBody p f s).Settled p k s := by
  unfold openBuildBody
  split
  · exact refuse_settled ..
  · split
    · exact refuse_settled ..
    · split
      · exact refuse_settled ..
      · exact refuse_settled ..
      all_goals exact .of_check (.of_check (.of_check (.of_check (allotBuild_settled ..))))

/-- An APPEND_POINTS refused past the handle check restarts the idle deadline (R66, R74). -/
theorem appendPointsBody_settled : (appendPointsBody p f s).Settled p .appendPoints s := by
  unfold appendPointsBody
  refine .of_check ?_
  split
  · exact refuse_settled ..
  · split
    · exact refuse_settled ..
    · next b hb =>
      split
      · trivial
      · split
        · trivial
        · trivial
        · trivial
        · dsimp only
          split
          · exact (LeavesRefused.restarted hb (.inl ⟨rfl, .inl rfl⟩)).settled
          · split
            · trivial
            · split
              · exact (LeavesRefused.restarted hb (.inl ⟨rfl, .inr rfl⟩)).settled
              · split
                · trivial
                · exact .ok (.after (.restartIdle ..) rfl)

/-- A CLOSE_BUILD refused past the handle check restarts the idle deadline, or discards the build (R63, R68, R74). -/
theorem closeBuildBody_settled : (closeBuildBody p f s).Settled p .closeBuild s := by
  unfold closeBuildBody
  split
  · exact refuse_settled ..
  · split
    · exact refuse_settled ..
    · split
      · exact refuse_settled ..
      · next b hb =>
        split
        · trivial
        · split
          · exact (LeavesRefused.restarted hb (.inr ⟨rfl, .inl rfl⟩)).settled
          · split
            · trivial
            · split
              · exact (LeavesRefused.discarded hb rfl).settled
              · split
                · exact (LeavesRefused.restarted hb (.inr ⟨rfl, .inr rfl⟩)).settled
                · exact .ok ((KeepsResponses.finishBuild ..).trans (.openChange ..))

theorem cancelBuildBody_settled : (cancelBuildBody p f s).Settled p k s := by
  unfold cancelBuildBody
  refine .of_check ?_
  split
  · exact refuse_settled ..
  · split
    · exact refuse_settled ..
    · exact .ok (.discardBuild ..)

theorem approveBody_settled : (approveBody p f s).Settled p k s := by
  unfold approveBody
  split
  · exact refuse_settled ..
  · dsimp only
    split
    · exact .ok (.after (.resolve ..) rfl)
    · exact .ok (.of_ports rfl)

theorem vetoBody_settled : (vetoBody p f s).Settled p k s := by
  unfold vetoBody
  split
  · exact refuse_settled ..
  · exact .ok (.resolve ..)

theorem withdrawBody_settled : (withdrawBody p f s).Settled p k s := by
  unfold withdrawBody
  refine .of_check ?_
  split
  · exact refuse_settled ..
  · split
    · exact refuse_settled ..
    · split
      · exact refuse_settled ..
      · exact .of_check (.ok (.resolve ..))

theorem holdBody_settled : (holdBody p f s).Settled p k s := by
  unfold holdBody
  split
  · exact refuse_settled ..
  · split
    · exact refuse_settled ..
    · split
      · exact refuse_settled ..
      · exact refuse_settled ..
      · exact refuse_settled ..
      · refine .of_check (.of_check (.of_check ?_))
        split
        · exact refuse_settled ..
        · exact .ok (.after (.raiseReference ..) rfl)

theorem renewBody_settled : (renewBody p f s).Settled p k s := by
  unfold renewBody
  refine .of_check ?_
  split
  · exact refuse_settled ..
  · split
    · exact refuse_settled ..
    · exact .ok (.of_ports rfl)

theorem releaseBody_settled : (releaseBody p f s).Settled p k s := by
  unfold releaseBody
  refine .of_check ?_
  split
  · exact refuse_settled ..
  · split
    · exact refuse_settled ..
    · exact .ok (.removeLease ..)

theorem readOptionsBody_settled : (readOptionsBody f s).Settled p k s := .ok (.refl s)

theorem programOptionBody_settled : (programOptionBody p f s).Settled p k s := by
  unfold programOptionBody
  refine .of_check ?_
  split
  · exact refuse_settled ..
  · exact .of_check (.of_check (.of_check (.of_check (.of_ports rfl))))

theorem closeProvisioningBody_settled : (closeProvisioningBody p f s).Settled p k s := by
  unfold closeProvisioningBody
  exact .of_check (.of_check (.of_check (.of_check (.of_ports rfl))))

end

/-- Every row of a control command carries out a body that is done or refused. -/
theorem controlRow_settled {c : Instr} {p : Port} {k : CommandKind} (h : controlRow c = some (p, k)) :
    ∃ body, (∀ f t, (body f t).Settled p k t) ∧ ∀ s, exec c s = controlCommand p k body s := by
  cases c with
  | attach p => cases h; exact ⟨_, attachBody_settled p, fun _ => rfl⟩
  | detach p => cases h; exact ⟨_, detachBody_settled p, fun _ => rfl⟩
  | defineTable p => cases h; exact ⟨_, defineTableBody_settled p, fun _ => rfl⟩
  | tableInfo p => cases h; exact ⟨_, tableInfoBody_settled p, fun _ => rfl⟩
  | proposeRetire p => cases h; exact ⟨_, proposeRetireBody_settled p, fun _ => rfl⟩
  | storeInfo p => cases h; exact ⟨_, storeInfoBody_settled p, fun _ => rfl⟩
  | openBuild p => cases h; exact ⟨_, openBuildBody_settled p, fun _ => rfl⟩
  | appendPoints p => cases h; exact ⟨_, appendPointsBody_settled p, fun _ => rfl⟩
  | closeBuild p => cases h; exact ⟨_, closeBuildBody_settled p, fun _ => rfl⟩
  | cancelBuild p => cases h; exact ⟨_, cancelBuildBody_settled p, fun _ => rfl⟩
  | approve p => cases h; exact ⟨_, approveBody_settled p, fun _ => rfl⟩
  | veto p => cases h; exact ⟨_, vetoBody_settled p, fun _ => rfl⟩
  | withdraw p => cases h; exact ⟨_, withdrawBody_settled p, fun _ => rfl⟩
  | hold p => cases h; exact ⟨_, holdBody_settled p, fun _ => rfl⟩
  | renew p => cases h; exact ⟨_, renewBody_settled p, fun _ => rfl⟩
  | release p => cases h; exact ⟨_, releaseBody_settled p, fun _ => rfl⟩
  | readPoints p => cases h; exact ⟨_, readPointsBody_settled p, fun _ => rfl⟩
  | readOptions p => cases h; exact ⟨_, readOptionsBody_settled p, fun _ => rfl⟩
  | programOption p => cases h; exact ⟨_, programOptionBody_settled p, fun _ => rfl⟩
  | closeProvisioning p => cases h; exact ⟨_, closeProvisioningBody_settled p, fun _ => rfl⟩
  | lookup | lookupBatch | burnCompletion | laneGrant | captureClaim | releaseClaim | teardownRequest | pendingTeardown
  | buildIdleExpiry | proposalExpiry | leaseExpiry | post | fetch | refetch | drain | status | unknownTransactionKind
  | prstnAsserted | prstnReleased | rstnAsserted | rstnReleased | powerOn | coldStartUp | warmStartUp => cases h

/-- The response that joined the queue since the taking of the command is the one delivered. -/
theorem eq_of_respQueue_deliverResponse {t u : State} {p : Port} {f : Frame} {r r' : Response}
    (hk : KeepsResponses t u) (he : (t.port p).inExec = some ⟨f, false⟩)
    (hr : ((u.deliverResponse p r').port p).respQueue = (t.port p).respQueue ++ [r]) : r = r' := by
  rw [deliverResponse_of_kept ((hk.inExec p).trans he), State.port_setPort_self, hk.respQueue] at hr
  exact (List.singleton_inj.1 (List.append_cancel_left hr)).symm

/-- Settles O7: the response is the row's own, which a hand-over does not have, and a status other than OK is a
refusal. -/
theorem refusedCommandChangesNothing : Obligations.RefusedCommandChangesNothing := by
  rintro c p k s t u f r hc hclaim ⟨⟨f', d⟩, he, rfl⟩ hexec hr hst
  obtain ⟨body, settled, exec_eq⟩ := controlRow_settled hc
  have settled := settled f t
  rw [exec_eq, controlCommand, hclaim] at hexec
  dsimp only at hexec
  cases hb : body f t with
  | fault e =>
    rw [hb] at hexec
    cases hexec
  | handOver v =>
    rw [hb] at settled hexec
    cases hexec
    rw [settled.respQueue] at hr
    exact (List.cons_ne_nil _ _ (List.self_eq_append_right.1 hr)).elim
  | answer v st payload =>
    rw [hb] at settled hexec
    cases hexec
    obtain ⟨keeps, outcome⟩ := settled
    obtain rfl := eq_of_respQueue_deliverResponse keeps he hr
    obtain ⟨rfl, refused⟩ := outcome.resolve_left hst
    refine ⟨by rw [(claimCommand_iff.1 hclaim).1], ?_⟩
    cases refused with
    | unchanged => exact .inl rfl
    | restarted build hk => exact .inr (.inl ⟨_, _, build, rfl, hk⟩)
    | discarded build hk => exact .inr (.inr ⟨_, _, build, hk, rfl, rfl⟩)

end Sys2Proof.Machine
end

section
/-! What a transaction touches (R144): of its port what it shifts, the queues, the last-fetched response, the lost flag and
ATTN, and nothing of any other port. -/

namespace Sys2Proof.Machine

/-! ### The shape of a transaction -/

/-- What holds of a port, and is kept by CSN falling, by each byte and by the end of the clocking, is kept by a
transaction. -/
theorem transact_induction {P : PortState → Prop} {x y : PortState} {running : Bool} {kind : Byte} {bs : List Byte}
    {c : Clocking} (start : P x) (selected : x.txn = none → P (x.selected running))
    (clocked : ∀ z b, P z → P (PortState.clockByte running z b)) (finished : ∀ z, P z → P (z.finishClocking c))
    (h : x.transact running kind bs c = some y) : P y := by
  have begun : P (if x.txn.isNone then x.selected running else x) := by
    split
    · next hx => exact selected (Option.isNone_iff_eq_none.1 hx)
    · exact start
  have run (cs : List Byte) (z : PortState) (hz : P z) :
      P ((cs.foldl (PortState.clockByte running) z).finishClocking c) :=
    finished _ (foldl_induction P _ cs z hz fun z b _ => clocked z b)
  unfold PortState.transact at h
  dsimp only at h
  split at h
  · cases h
  · split at h
    · split at h <;> obtain rfl := Option.some.inj h
      · exact finished _ begun
      · exact run _ _ begun
    · split at h
      · obtain rfl := Option.some.inj h
        exact run _ _ begun
      · cases h

/-- The end of a step's clocking touches the transaction in progress alone. -/
theorem finishClocking_frame (x : PortState) (c : Clocking) :
    x.finishClocking c = { x with txn := (x.finishClocking c).txn } := by
  cases c with
  | insideByte | insideKind =>
    simp only [PortState.finishClocking, PortState.beginByte]
    split <;> rfl
  | closed | abandoned | held | selected => rfl

/-- Whether a FETCH completes, in the phase that follows and in what it does to the port. -/
theorem endPhase_fetch (x : PortState) (running : Bool) (b o : Byte) (left : List Byte) :
    x.endPhase running b o (.fetch left)
      = if left.tail = [] then (x.completeFetch, .rest) else (x, .fetch left.tail) := by
  simp only [PortState.endPhase]
  split <;> simp_all

theorem endPhase_send (x : PortState) (running : Bool) (b o : Byte) (left : List Byte) :
    x.endPhase running b o (.send left) = (x, if left.tail = [] then .rest else .send left.tail) := by
  simp only [PortState.endPhase]
  split <;> simp_all

/-! ### What a transaction leaves alone -/

/-- The two ports have the same command in execution, reset state, session indication, pin and count of cut bytes. -/
structure LinkKeeps (x y : PortState) : Prop where
  inExec : y.inExec = x.inExec
  resetting : y.resetting = x.resetting
  teardownOutstanding : y.teardownOutstanding = x.teardownOutstanding
  attached : y.attached = x.attached
  prstnLow : y.prstnLow = x.prstnLow
  cuts : y.cuts = x.cuts

namespace LinkKeeps

variable {x y z : PortState}

theorem refl (x : PortState) : LinkKeeps x x := ⟨rfl, rfl, rfl, rfl, rfl, rfl⟩

theorem trans (h : LinkKeeps x y) (h' : LinkKeeps y z) : LinkKeeps x z :=
  ⟨h'.inExec.trans h.inExec, h'.resetting.trans h.resetting, h'.teardownOutstanding.trans h.teardownOutstanding,
    h'.attached.trans h.attached, h'.prstnLow.trans h.prstnLow, h'.cuts.trans h.cuts⟩

theorem completeFetch (x : PortState) : LinkKeeps x x.completeFetch := by
  unfold PortState.completeFetch
  split <;> exact ⟨rfl, rfl, rfl, rfl, rfl, rfl⟩

theorem endPhase (x : PortState) (running : Bool) (b o : Byte) (ph : TxnPhase) :
    LinkKeeps x (x.endPhase running b o ph).1 := by
  cases ph with
  | fetch left =>
    rw [endPhase_fetch]
    split
    · exact completeFetch x
    · exact refl x
  | send left =>
    rw [endPhase_send]
    exact refl x
  | drainRecord left pos acc =>
    simp only [PortState.endPhase]
    split <;> exact ⟨rfl, rfl, rfl, rfl, rfl, rfl⟩
  | drainLost acc dropped =>
    simp only [PortState.endPhase]
    split <;> exact ⟨rfl, rfl, rfl, rfl, rfl, rfl⟩
  | select | post | accepting | rejecting | drainCount | drainCheck | rest => exact ⟨rfl, rfl, rfl, rfl, rfl, rfl⟩

theorem clockByte (running : Bool) (x : PortState) (b : Byte) : LinkKeeps x (PortState.clockByte running x b) := by
  unfold PortState.clockByte
  split
  · exact refl x
  · exact (endPhase ..).trans ⟨rfl, rfl, rfl, rfl, rfl, rfl⟩

theorem transact {running : Bool} {kind : Byte} {bs : List Byte} {c : Clocking}
    (h : x.transact running kind bs c = some y) : LinkKeeps x y :=
  transact_induction (P := LinkKeeps x) (refl x) (fun _ => ⟨rfl, rfl, rfl, rfl, rfl, rfl⟩)
    (fun z b hz => hz.trans (clockByte running z b))
    (fun z hz => hz.trans (by rw [finishClocking_frame]; exact ⟨rfl, rfl, rfl, rfl, rfl, rfl⟩)) h

end LinkKeeps

/-- A transaction step completes, and writes its own port. -/
theorem transaction_keeps (p : Port) (kind : Byte) (bs : List Byte) (c : Clocking) (s : State) :
    ∃ x, transaction p kind bs c s = .next (s.setPort p x) ∧ LinkKeeps (s.port p) x := by
  obtain h | ⟨x, hx, -, h⟩ := transaction_cases p kind bs c s
  · exact ⟨s.port p, by rw [h, State.setPort_port], .refl _⟩
  · exact ⟨x, h, .transact hx⟩

/-- A row of the link is a step of a transaction, but for an unknown kind that is none, which is ignored. -/
theorem linkRow_transaction {c : Instr} {p : Port} (h : linkRow c = some p) (s : State) :
    exec c s = .next s ∨ ∃ kind bs cl, exec c s = transaction p kind bs cl s := by
  cases c with
  | post q bs cl => cases h; exact .inr ⟨_, _, _, rfl⟩
  | fetch q n cl | refetch q n cl | drain q n cl | status q n cl => cases h; exact .inr ⟨_, _, _, rfl⟩
  | unknownTransactionKind q kind n cl =>
    cases h
    by_cases known : isTransactionKind kind = true
    · exact .inl (if_pos known)
    · exact .inr ⟨kind, _, cl, if_neg known⟩
  | attach | detach | defineTable | tableInfo | proposeRetire | storeInfo | openBuild | appendPoints | closeBuild
  | cancelBuild | approve | veto | withdraw | hold | renew | release | readPoints | readOptions | programOption
  | closeProvisioning | lookup | lookupBatch | burnCompletion | laneGrant | captureClaim | releaseClaim
  | teardownRequest | pendingTeardown | buildIdleExpiry | proposalExpiry | leaseExpiry | prstnAsserted | prstnReleased
  | rstnAsserted | rstnReleased | powerOn | coldStartUp | warmStartUp => cases h

/-- Settles O47: a transaction step writes its own port, and no byte of it touches what the obligation names. -/
theorem transactionsActOnTheirOwnPort : Obligations.TransactionsActOnTheirOwnPort := by
  intro c p s hc
  obtain h | ⟨kind, bs, cl, h⟩ := linkRow_transaction hc s
  · exact ⟨s.port p, by rw [h, State.setPort_port], rfl, rfl, rfl, rfl, rfl, rfl⟩
  · obtain ⟨x, hx, keeps⟩ := transaction_keeps p kind bs cl s
    exact ⟨x, h.trans hx, keeps.inExec, keeps.resetting, keeps.teardownOutstanding, keeps.attached, keeps.prstnLow,
      keeps.cuts⟩

end Sys2Proof.Machine
end

section
/-! The laws of the ports through a transaction and through what arrives at a port: the window with the frame that a POST
has been promised (R149, R150), the event queue (R163) and ATTN (R156). -/

namespace Sys2Proof.Machine

/-! ### The law of a port with a frame promised -/

theorem window_eq (x : PortState) :
    x.window = x.cmdQueue.length + x.inExec.toList.length + x.respQueue.length := by
  unfold PortState.window
  cases x.inExec <;> rfl

/-- 1 in the phase in which a POST has been decided ACCEPTED (R149). -/
def TxnPhase.promised : TxnPhase → Nat
  | .accepting _ => 1
  | _ => 0

theorem promised_of_none {x : PortState} (h : x.txn = none) : x.promised = 0 := by
  rw [PortState.promised, h]

theorem promised_of_some {x : PortState} {t : Txn} (h : x.txn = some t) : x.promised = t.phase.promised := by
  obtain ⟨k, ph, o⟩ := t
  rw [PortState.promised, h]
  cases ph <;> rfl

/-- The laws of a port, the frames promised given as a number: these do not look at the transaction in progress. -/
def PortState.lawFor (x : PortState) (promised : Nat) : Prop :=
  x.window + promised ≤ 8 ∧ x.events.length ≤ 16 ∧ x.attn = x.wantsAttention

theorem law_of_none {x : PortState} (h : x.txn = none) : x.law ↔ x.lawFor 0 := by
  rw [PortState.law, promised_of_none h, PortState.lawFor]

theorem law_of_some {x : PortState} {t : Txn} (h : x.txn = some t) : x.law ↔ x.lawFor t.phase.promised := by
  rw [PortState.law, promised_of_some h, PortState.lawFor]

theorem PortState.lawFor.law_withTxn {x : PortState} {t : Txn} (h : x.lawFor t.phase.promised) (sent : List Byte) :
    ({ x with sent := sent, txn := some t } : PortState).law := (law_of_some rfl).2 h

theorem PortState.law.lawFor_zero {x : PortState} (h : x.law) : x.lawFor 0 :=
  ⟨Nat.le_of_add_right_le h.1, h.2⟩

/-- A port whose ATTN is re-evaluated is within its laws by its counts. -/
theorem lawFor_reevaluate {x : PortState} {n : Nat} (hw : x.window + n ≤ 8) (he : x.events.length ≤ 16) :
    x.reevaluate.lawFor n := ⟨hw, he, rfl⟩

/-! ### Through a transaction -/

theorem choose_promised (x : PortState) (running : Bool) (kind : Byte) : (x.choose running kind).promised = 0 := by
  unfold PortState.choose
  repeat' split
  all_goals rfl

/-- A frame is decided ACCEPTED only with room for it in the window (Table 80). -/
theorem window_add_judge_promised {x : PortState} (h : x.window ≤ 8) (running : Bool) (got : List Byte) :
    x.window + (x.judge running got).promised ≤ 8 := by
  unfold PortState.judge
  dsimp only
  repeat' split
  case isFalse full =>
    simp only [Config.windowSize, Nat.not_le] at full
    exact full
  all_goals exact h

theorem completeFetch_lawFor {x : PortState} {n : Nat} (h : x.lawFor n) : x.completeFetch.lawFor n := by
  unfold PortState.completeFetch
  split
  · exact h
  · next r rest hq =>
    obtain ⟨window, events, -⟩ := h
    refine lawFor_reevaluate ?_ events
    simp only [window_eq, hq, List.length_cons] at window ⊢
    omega

/-- The eighth bit of a byte keeps the laws, with the frame that the next phase promises in place of the one that this
phase does. -/
theorem endPhase_lawFor {x : PortState} {ph : TxnPhase} (h : x.lawFor ph.promised) (running : Bool) (b o : Byte) :
    (x.endPhase running b o ph).1.lawFor (x.endPhase running b o ph).2.promised := by
  obtain ⟨window, events, attn⟩ := id h
  cases ph with
  | select st => exact ⟨by rw [PortState.endPhase, choose_promised]; exact window, events, attn⟩
  | post got =>
    simp only [PortState.endPhase]
    split
    · exact ⟨window_add_judge_promised window running _, events, attn⟩
    · exact h
  | accepting f =>
    have queued : (x.endPhase running b o (.accepting f)).1.window = x.window + 1 := by
      simp +arith [window_eq, PortState.endPhase]
    exact ⟨queued ▸ window, events, attn⟩
  | fetch left =>
    rw [endPhase_fetch]
    split
    · exact completeFetch_lawFor h
    · exact h
  | send left =>
    rw [endPhase_send]
    dsimp only
    split <;> exact h
  | drainCount n =>
    simp only [PortState.endPhase]
    split <;> exact h
  | drainRecord left pos acc =>
    have shorter : x.events.tail.length ≤ 16 := by rw [List.length_tail]; omega
    simp only [PortState.endPhase]
    split
    · exact h
    · dsimp only
      split <;> exact lawFor_reevaluate window shorter
  | drainLost acc dropped =>
    simp only [PortState.endPhase]
    split
    · exact lawFor_reevaluate window events
    · exact h
  | rejecting | drainCheck | rest => exact h

theorem clockByte_law {x : PortState} (h : x.law) (running : Bool) (b : Byte) :
    (PortState.clockByte running x b).law := by
  unfold PortState.clockByte
  split
  · exact h
  · next t ht => exact (endPhase_lawFor ((law_of_some ht).1 h) running b _).law_withTxn (t := ⟨_, _, none⟩) _

theorem finishClocking_law {x : PortState} (h : x.law) (c : Clocking) : (x.finishClocking c).law := by
  cases c with
  | closed | abandoned => exact (law_of_none rfl).2 h.lawFor_zero
  | insideByte | insideKind =>
    simp only [PortState.finishClocking, PortState.beginByte]
    split
    · exact h
    · next t ht => exact ((law_of_some ht).1 h).law_withTxn (t := ⟨t.kind, t.phase, some _⟩) _
  | held | selected => exact h

theorem transact_law {x y : PortState} {running : Bool} {kind : Byte} {bs : List Byte} {c : Clocking} (hx : x.law)
    (h : x.transact running kind bs c = some y) : y.law :=
  transact_induction hx (fun idle => ((law_of_none idle).1 hx).law_withTxn (t := ⟨_, .select _, none⟩) _)
    (fun _ b hz => clockByte_law hz running b) (fun _ hz => finishClocking_law hz c) h

/-! ### Through arrivals -/

theorem promised_map_noteDrop (x : PortState) (lost attn : Bool) :
    ({ x with lost := lost, attn := attn, txn := x.txn.map Txn.noteDrop } : PortState).promised = x.promised := by
  cases ht : x.txn with
  | none => rw [promised_of_none ht, promised_of_none (by simp)]
  | some t =>
    rw [promised_of_some ht, promised_of_some (t := t.noteDrop) (by simp)]
    unfold Txn.noteDrop
    split
    · next hp _ => rw [hp]; rfl
    · rfl

theorem receive_law {x : PortState} (h : x.law) (e : EventRecord) : (x.receive e).law := by
  obtain ⟨window, events, -⟩ := id h
  obtain ⟨-, hr⟩ | ⟨-, room, hr⟩ | ⟨-, -, hr⟩ := receive_cases x e <;> rw [hr]
  · exact h
  · exact ⟨window, by simpa using room, by simp [PortState.wantsAttention]⟩
  · exact ⟨by rw [promised_map_noteDrop]; exact window, events, by simp [PortState.wantsAttention]⟩

theorem receive_attached (x : PortState) (e : EventRecord) : (x.receive e).attached = x.attached := by
  obtain ⟨-, hr⟩ | ⟨-, -, hr⟩ | ⟨-, -, hr⟩ := receive_cases x e <;> rw [hr]

/-- The command in execution ends, without a response or with one. -/
theorem law_of_answered {x : PortState} (h : x.law) (resetting outstanding : Bool) :
    ({ x with inExec := none, teardownOutstanding := outstanding, resetting := resetting } : PortState).law := by
  obtain ⟨window, rest⟩ := h
  refine ⟨Nat.le_trans (Nat.add_le_add_right ?_ x.promised) window, rest⟩
  simp [window_eq]

theorem law_of_response {x : PortState} (h : x.law) (hx : x.inExec.isSome = true) (r : Response) :
    ({ x with inExec := none, respQueue := x.respQueue ++ [r] } : PortState).reevaluate.law := by
  obtain ⟨window, events, -⟩ := h
  refine ⟨Nat.le_trans (Nat.add_le_add_right (Nat.le_of_eq ?_) x.promised) window, events, rfl⟩
  obtain ⟨e, he⟩ := Option.isSome_iff_exists.1 hx
  simp +arith [window_eq, he]

end Sys2Proof.Machine
end

section
/-! The laws of the ports through every operation that a claim carries out: what reaches a port is an event record, a
response, or the state of its session entry (R116). -/

namespace Sys2Proof.Machine

/-- The laws of the ports hold in `t` if they hold in `s`. -/
structure KeepsPortLaw (s t : State) : Prop where
  portLaw : s.portLaw → t.portLaw

namespace KeepsPortLaw

variable {s t u : State}

theorem refl (s : State) : KeepsPortLaw s s := ⟨id⟩

theorem trans (h : KeepsPortLaw s t) (h' : KeepsPortLaw t u) : KeepsPortLaw s u := ⟨h'.portLaw ∘ h.portLaw⟩

/-- The laws look at the ports and the session entries alone. -/
theorem of_same (hp : t.ports = s.ports) (hs : t.sessions = s.sessions) : KeepsPortLaw s t where
  portLaw law p := by
    have port : t.port p = s.port p := by rw [State.port, State.port, hp]
    have attached : t.isAttached p = s.isAttached p := by
      simp only [State.isAttached, State.currentSession, State.session, hs]
    rw [port, attached]
    exact law p

theorem after (h : KeepsPortLaw t u) (hp : t.ports = s.ports) (hs : t.sessions = s.sessions) : KeepsPortLaw s u :=
  (of_same hp hs).trans h

theorem setPort {p : Port} {x : PortState} (h : (s.port p).law → x.law) (ha : x.attached = (s.port p).attached) :
    KeepsPortLaw s (s.setPort p x) where
  portLaw law q := by
    rw [State.port_setPort_ite]
    split
    · next hq =>
      subst hq
      exact ⟨h (law q).1, ha.trans (law q).2⟩
    · exact law q

theorem updPort {p : Port} {f : PortState → PortState} (h : (s.port p).law → (f (s.port p)).law)
    (ha : (f (s.port p)).attached = (s.port p).attached) : KeepsPortLaw s (s.updPort p f) := setPort h ha

/-- A session entry hands its state to its port within the same event (R116). -/
theorem setSession (s : State) (p : Port) (x : SessionEntry) : KeepsPortLaw s (s.setSession p x) where
  portLaw law q := by
    by_cases hq : q = p
    · subst hq
      refine ⟨?_, ?_⟩
      · rw [State.setSession, State.port_updPort_self]
        exact (law q).1
      · rw [State.port_setSession_attached, State.isAttached, State.currentSession, State.session_setSession_self]
        cases x.state <;> rfl
    · have attached : (s.setSession p x).isAttached q = s.isAttached q := by
        simp only [State.isAttached, State.currentSession, State.session_setSession_ne s x hq]
      rw [State.port_setSession_ne s x hq, attached]
      exact law q

/-! ### Events and responses -/

theorem deliverEvent (s : State) (p : Port) (e : EventRecord) : KeepsPortLaw s (s.deliverEvent p e) := by
  unfold State.deliverEvent
  split
  · exact updPort (fun h => receive_law h e) (receive_attached ..)
  · exact refl s

theorem deliverWhere (s : State) (f : Port → Bool) (e : EventRecord) : KeepsPortLaw s (s.deliverWhere f e) :=
  foldl_induction (KeepsPortLaw s) _ _ s (refl s) fun t p _ ht => by
    split
    · exact ht.trans (deliverEvent t p e)
    · exact ht

theorem presentRequest (s : State) (p : Port) : KeepsPortLaw s (s.presentRequest p) := of_same rfl rfl

theorem deliverResponse (s : State) (p : Port) (r : Response) : KeepsPortLaw s (s.deliverResponse p r) := by
  unfold State.deliverResponse
  split
  · exact refl s
  · next e he =>
    have busy : (s.port p).inExec.isSome = true := by rw [he]; rfl
    split
    · split
      · exact (updPort (fun h => law_of_answered h ..) rfl).trans (presentRequest ..)
      · exact updPort (fun h => law_of_answered h ..) rfl
    · exact updPort (fun h => law_of_response h busy r) rfl

/-! ### Changes, builds, sessions and leases -/

theorem openChange (s : State) (k : SlotIndex) (c : Change) (p : Port) (n : Session) :
    KeepsPortLaw s (s.openChange k c p n).1 := by
  unfold State.openChange
  dsimp only
  split
  · split
    · exact refl s
    · dsimp only
      exact after (deliverWhere ..) rfl rfl
  · exact after (deliverWhere ..) (by rw [adopt_frame]) (by rw [adopt_frame])

theorem resolve (s : State) (e : ProposalIndex) (o : ProposalOutcome) : KeepsPortLaw s (s.resolve e o) := by
  unfold State.resolve
  split
  · exact refl s
  · next q _ =>
    have ports : (s.applyOutcome q.slot q.change o).ports = s.ports := by rw [applyOutcome_frame]
    have sessions : (s.applyOutcome q.slot q.change o).sessions = s.sessions := by rw [applyOutcome_frame]
    cases o with
    | adopted => exact after ((deliverWhere ..).trans (deliverWhere ..)) ports sessions
    | rejected | lapsed | withdrawn | pending => exact after (deliverWhere ..) ports sessions

theorem warnStoreLow (s : State) (before : Nat) : KeepsPortLaw s (s.warnStoreLow before) := by
  unfold State.warnStoreLow
  split
  · exact (deliverWhere s _ _).trans (of_same rfl rfl)
  · exact refl s

theorem restartIdle (s : State) (r : RecordIndex) : KeepsPortLaw s (s.restartIdle r) := by
  unfold State.restartIdle
  repeat' split
  all_goals exact of_same rfl rfl

theorem raiseReference (s : State) (r : RecordIndex) : KeepsPortLaw s (s.raiseReference r) := by
  unfold State.raiseReference
  split <;> exact of_same rfl rfl

theorem discardBuild (s : State) (h : Handle) : KeepsPortLaw s (s.discardBuild h) := by
  rw [discardBuild_frame]
  exact of_same rfl rfl

theorem finishBuild (s : State) (h : Handle) (b : BuildContext) (g : GenRecord) (c : Word) :
    KeepsPortLaw s (s.finishBuild h b g c) := by
  rw [finishBuild_eq, returnBlocks_frame]
  exact of_same rfl rfl

theorem teardown (s : State) (p : Port) (n : Session) : KeepsPortLaw s (s.teardown p n) := by
  rw [teardown_frame]
  exact of_same rfl rfl

theorem removeLease (s : State) (e : LeaseIndex) : KeepsPortLaw s (s.removeLease e) := by
  rw [removeLease_frame]
  exact of_same rfl rfl

theorem dropReference (s : State) (r : RecordIndex) : KeepsPortLaw s (s.dropReference r) := by
  rw [dropReference_frame]
  exact of_same rfl rfl

/-! ### A command that passes into execution (R130) -/

/-- The head command leaves the queue for the place of the command in execution, which is free. -/
theorem law_of_passed {x : PortState} (h : x.law) (hx : x.inExec = none) {f : Frame} {rest : List Frame}
    (hq : x.cmdQueue = f :: rest) : ({ x with cmdQueue := rest, inExec := some ⟨f, false⟩ } : PortState).law := by
  obtain ⟨window, others⟩ := h
  refine ⟨Nat.le_trans (Nat.add_le_add_right (Nat.le_of_eq ?_) x.promised) window, others⟩
  simp +arith [window_eq, hx, hq]

theorem takeCommand {p : Port} {f : Frame} (h : s.nextCommand p = some f) : KeepsPortLaw s (s.takeCommand p) := by
  obtain ⟨-, -, head, -, -, idle, -⟩ := nextCommand_eq_some h
  obtain ⟨rest, hq⟩ := List.head?_eq_some_iff.1 head
  rw [takeCommand_of_head head, hq]
  exact (setPort (fun law => law_of_passed law idle hq) rfl).trans (of_same rfl rfl)

theorem claimCommand {p : Port} {k : CommandKind} {f : Frame} (h : s.claimCommand p k = some (f, t)) :
    KeepsPortLaw s t := by
  obtain ⟨-, ⟨-, -, rfl⟩ | ⟨next, rfl⟩⟩ := claimCommand_cases h
  · exact refl _
  · exact takeCommand next

/-- A granted lookup passes into execution (R23). -/
theorem grantLane {i : LaneIndex} (h : s.grantLane = some (i, t)) : KeepsPortLaw s t := by
  obtain ⟨p, f, rest, -, choice, hq, rfl⟩ := grantLane_cases h
  have eligible := List.find?_some choice
  simp only [State.laneEligible, State.mayPass, Bool.and_eq_true, Option.isNone_iff_eq_none] at eligible
  obtain ⟨⟨-, idle⟩, -⟩ := eligible
  exact (setPort (fun law => law_of_passed law idle hq) rfl).trans (of_same rfl rfl)

end KeepsPortLaw

/-! ### The bodies of the control commands -/

/-- What a body leaves of the state keeps the laws of the ports. -/
def CommandResult.KeepsPortLaw (s : State) : CommandResult → Prop
  | .answer u _ _ | .handOver u => Machine.KeepsPortLaw s u
  | .fault _ => True

theorem refuse_keepsPortLaw (s : State) (st : Status) : (refuse s st).KeepsPortLaw s := KeepsPortLaw.refl s

/-- A check that refuses (R140). -/
theorem CommandResult.KeepsPortLaw.of_check {s : State} {c : Prop} [Decidable c] {st : Status} {x : CommandResult}
    (h : x.KeepsPortLaw s) : (if c then refuse s st else x).KeepsPortLaw s := by
  split
  · exact refuse_keepsPortLaw ..
  · exact h

section
variable (p : Port) (f : Frame) (s : State)

theorem attachBody_keepsPortLaw : (attachBody p f s).KeepsPortLaw s := by
  unfold attachBody
  split
  · exact refuse_keepsPortLaw ..
  · exact refuse_keepsPortLaw ..
  · exact KeepsPortLaw.setSession ..

theorem detachBody_keepsPortLaw : (detachBody p f s).KeepsPortLaw s := by
  unfold detachBody
  split
  · exact refuse_keepsPortLaw ..
  · exact ((KeepsPortLaw.setSession ..).trans (.teardown ..)).trans (.setSession ..)

theorem defineTableBody_keepsPortLaw : (defineTableBody p f s).KeepsPortLaw s := by
  unfold defineTableBody
  refine .of_check ?_
  split
  · exact refuse_keepsPortLaw ..
  · exact .of_check (.of_check (.of_check (KeepsPortLaw.of_same rfl rfl)))

theorem tableInfoBody_keepsPortLaw : (tableInfoBody p f s).KeepsPortLaw s := by
  unfold tableInfoBody
  refine .of_check ?_
  split
  · exact refuse_keepsPortLaw ..
  · exact KeepsPortLaw.refl s

theorem proposeRetireBody_keepsPortLaw : (proposeRetireBody p f s).KeepsPortLaw s := by
  unfold proposeRetireBody
  split
  · exact refuse_keepsPortLaw ..
  · split
    · exact refuse_keepsPortLaw ..
    · split
      · exact refuse_keepsPortLaw ..
      · exact refuse_keepsPortLaw ..
      all_goals exact .of_check (.of_check (.of_check (.of_check (.of_check (KeepsPortLaw.openChange ..)))))

theorem storeInfoBody_keepsPortLaw : (storeInfoBody f s).KeepsPortLaw s := KeepsPortLaw.refl s

theorem readPointsBody_keepsPortLaw : (readPointsBody p f s).KeepsPortLaw s := by
  unfold readPointsBody
  refine .of_check ?_
  split
  · exact refuse_keepsPortLaw ..
  · split
    · exact refuse_keepsPortLaw ..
    · split
      · trivial
      · refine .of_check ?_
        split
        · trivial
        · exact KeepsPortLaw.refl s

/-- The resources of OPEN_BUILD in their order (R64), and the warning STORE_LOW (R17). -/
theorem allotBuild_keepsPortLaw (n : Session) (a : OpenArgs) : (s.allotBuild p n a).KeepsPortLaw s := by
  unfold State.allotBuild
  split
  · exact refuse_keepsPortLaw ..
  · split
    · exact refuse_keepsPortLaw ..
    · exact .of_check (KeepsPortLaw.after (.warnStoreLow ..) rfl rfl)

theorem openBuildBody_keepsPortLaw : (openBuildBody p f s).KeepsPortLaw s := by
  unfold openBuildBody
  split
  · exact refuse_keepsPortLaw ..
  · split
    · exact refuse_keepsPortLaw ..
    · split
      · exact refuse_keepsPortLaw ..
      · exact refuse_keepsPortLaw ..
      all_goals exact .of_check (.of_check (.of_check (.of_check (allotBuild_keepsPortLaw ..))))

theorem appendPointsBody_keepsPortLaw : (appendPointsBody p f s).KeepsPortLaw s := by
  unfold appendPointsBody
  refine .of_check ?_
  split
  · exact refuse_keepsPortLaw ..
  · split
    · exact refuse_keepsPortLaw ..
    · split
      · trivial
      · split
        · trivial
        · trivial
        · trivial
        · dsimp only
          split
          · exact KeepsPortLaw.restartIdle ..
          · split
            · trivial
            · split
              · exact KeepsPortLaw.restartIdle ..
              · split
                · trivial
                · exact KeepsPortLaw.after (.restartIdle ..) rfl rfl

theorem closeBuildBody_keepsPortLaw : (closeBuildBody p f s).KeepsPortLaw s := by
  unfold closeBuildBody
  split
  · exact refuse_keepsPortLaw ..
  · split
    · exact refuse_keepsPortLaw ..
    · split
      · exact refuse_keepsPortLaw ..
      · split
        · trivial
        · split
          · exact KeepsPortLaw.restartIdle ..
          · split
            · trivial
            · split
              · exact KeepsPortLaw.discardBuild ..
              · split
                · exact KeepsPortLaw.restartIdle ..
                · exact (KeepsPortLaw.finishBuild ..).trans (.openChange ..)

theorem cancelBuildBody_keepsPortLaw : (cancelBuildBody p f s).KeepsPortLaw s := by
  unfold cancelBuildBody
  refine .of_check ?_
  split
  · exact refuse_keepsPortLaw ..
  · split
    · exact refuse_keepsPortLaw ..
    · exact KeepsPortLaw.discardBuild ..

theorem approveBody_keepsPortLaw : (approveBody p f s).KeepsPortLaw s := by
  unfold approveBody
  split
  · exact refuse_keepsPortLaw ..
  · dsimp only
    split
    · exact KeepsPortLaw.after (.resolve ..) rfl rfl
    · exact KeepsPortLaw.of_same rfl rfl

theorem vetoBody_keepsPortLaw : (vetoBody p f s).KeepsPortLaw s := by
  unfold vetoBody
  split
  · exact refuse_keepsPortLaw ..
  · exact KeepsPortLaw.resolve ..

theorem withdrawBody_keepsPortLaw : (withdrawBody p f s).KeepsPortLaw s := by
  unfold withdrawBody
  refine .of_check ?_
  split
  · exact refuse_keepsPortLaw ..
  · split
    · exact refuse_keepsPortLaw ..
    · split
      · exact refuse_keepsPortLaw ..
      · exact .of_check (KeepsPortLaw.resolve ..)

theorem holdBody_keepsPortLaw : (holdBody p f s).KeepsPortLaw s := by
  unfold holdBody
  split
  · exact refuse_keepsPortLaw ..
  · split
    · exact refuse_keepsPortLaw ..
    · split
      · exact refuse_keepsPortLaw ..
      · exact refuse_keepsPortLaw ..
      · exact refuse_keepsPortLaw ..
      · refine .of_check (.of_check (.of_check ?_))
        split
        · exact refuse_keepsPortLaw ..
        · exact KeepsPortLaw.after (.raiseReference ..) rfl rfl

theorem renewBody_keepsPortLaw : (renewBody p f s).KeepsPortLaw s := by
  unfold renewBody
  refine .of_check ?_
  split
  · exact refuse_keepsPortLaw ..
  · split
    · exact refuse_keepsPortLaw ..
    · exact KeepsPortLaw.of_same rfl rfl

theorem releaseBody_keepsPortLaw : (releaseBody p f s).KeepsPortLaw s := by
  unfold releaseBody
  refine .of_check ?_
  split
  · exact refuse_keepsPortLaw ..
  · split
    · exact refuse_keepsPortLaw ..
    · exact KeepsPortLaw.removeLease ..

theorem readOptionsBody_keepsPortLaw : (readOptionsBody f s).KeepsPortLaw s := KeepsPortLaw.refl s

theorem programOptionBody_keepsPortLaw : (programOptionBody p f s).KeepsPortLaw s := by
  unfold programOptionBody
  refine .of_check ?_
  split
  · exact refuse_keepsPortLaw ..
  · exact .of_check (.of_check (.of_check (.of_check (KeepsPortLaw.of_same rfl rfl))))

theorem closeProvisioningBody_keepsPortLaw : (closeProvisioningBody p f s).KeepsPortLaw s := by
  unfold closeProvisioningBody
  exact .of_check (.of_check (.of_check (.of_check (KeepsPortLaw.of_same rfl rfl))))

end

/-- Every row of a control command carries out a body that keeps the laws of the ports. -/
theorem controlRow_keepsPortLaw {c : Instr} {p : Port} {k : CommandKind} (h : controlRow c = some (p, k)) :
    ∃ body, (∀ f t, (body f t).KeepsPortLaw t) ∧ ∀ s, exec c s = controlCommand p k body s := by
  cases c with
  | attach p => cases h; exact ⟨_, attachBody_keepsPortLaw p, fun _ => rfl⟩
  | detach p => cases h; exact ⟨_, detachBody_keepsPortLaw p, fun _ => rfl⟩
  | defineTable p => cases h; exact ⟨_, defineTableBody_keepsPortLaw p, fun _ => rfl⟩
  | tableInfo p => cases h; exact ⟨_, tableInfoBody_keepsPortLaw p, fun _ => rfl⟩
  | proposeRetire p => cases h; exact ⟨_, proposeRetireBody_keepsPortLaw p, fun _ => rfl⟩
  | storeInfo p => cases h; exact ⟨_, storeInfoBody_keepsPortLaw, fun _ => rfl⟩
  | openBuild p => cases h; exact ⟨_, openBuildBody_keepsPortLaw p, fun _ => rfl⟩
  | appendPoints p => cases h; exact ⟨_, appendPointsBody_keepsPortLaw p, fun _ => rfl⟩
  | closeBuild p => cases h; exact ⟨_, closeBuildBody_keepsPortLaw p, fun _ => rfl⟩
  | cancelBuild p => cases h; exact ⟨_, cancelBuildBody_keepsPortLaw p, fun _ => rfl⟩
  | approve p => cases h; exact ⟨_, approveBody_keepsPortLaw p, fun _ => rfl⟩
  | veto p => cases h; exact ⟨_, vetoBody_keepsPortLaw p, fun _ => rfl⟩
  | withdraw p => cases h; exact ⟨_, withdrawBody_keepsPortLaw p, fun _ => rfl⟩
  | hold p => cases h; exact ⟨_, holdBody_keepsPortLaw p, fun _ => rfl⟩
  | renew p => cases h; exact ⟨_, renewBody_keepsPortLaw p, fun _ => rfl⟩
  | release p => cases h; exact ⟨_, releaseBody_keepsPortLaw p, fun _ => rfl⟩
  | readPoints p => cases h; exact ⟨_, readPointsBody_keepsPortLaw p, fun _ => rfl⟩
  | readOptions p => cases h; exact ⟨_, readOptionsBody_keepsPortLaw, fun _ => rfl⟩
  | programOption p => cases h; exact ⟨_, programOptionBody_keepsPortLaw p, fun _ => rfl⟩
  | closeProvisioning p => cases h; exact ⟨_, closeProvisioningBody_keepsPortLaw p, fun _ => rfl⟩
  | lookup | lookupBatch | burnCompletion | laneGrant | captureClaim | releaseClaim | teardownRequest | pendingTeardown
  | buildIdleExpiry | proposalExpiry | leaseExpiry | post | fetch | refetch | drain | status | unknownTransactionKind
  | prstnAsserted | prstnReleased | rstnAsserted | rstnReleased | powerOn | coldStartUp | warmStartUp => cases h

end Sys2Proof.Machine
end

section
/-! The laws of the ports through every row and through the tick. -/

namespace Sys2Proof.Machine

/-- A row that completes keeps the laws of the ports. -/
def PortLawEnd (s : State) : Host.Outcome State Fault Refusal → Prop
  | .next t => KeepsPortLaw s t
  | .fault _ | .refused _ => True

theorem KeepsPortLaw.portLawEnd {s t : State} (h : KeepsPortLaw s t) : PortLawEnd s (.next t) := h

theorem unchanged_portLawEnd (s : State) : PortLawEnd s (.next s) := KeepsPortLaw.refl s

/-! ### Control commands -/

theorem controlCommand_portLawEnd {p : Port} {k : CommandKind} {body : Frame → State → CommandResult}
    (hb : ∀ f t, (body f t).KeepsPortLaw t) (s : State) : PortLawEnd s (controlCommand p k body s) := by
  obtain ⟨-, h⟩ | ⟨f, t, hc, h⟩ := controlCommand_cases p k body s
  · rw [h]
    exact unchanged_portLawEnd s
  · have claimed := KeepsPortLaw.claimCommand hc
    have carried := hb f t
    obtain ⟨u, st, pl, hu, h⟩ | ⟨u, hu, h⟩ | ⟨e, hu, h⟩ := h <;> rw [h] <;> rw [hu] at carried
    · exact (claimed.trans carried).trans (.deliverResponse ..)
    · exact claimed.trans carried
    · trivial

/-! ### Lookups -/

theorem KeepsPortLaw.takeCapture (s : State) (i : LaneIndex) (w : LaneWork) : KeepsPortLaw s (s.takeCapture i w) := by
  obtain ⟨r, stale, -, h⟩ | ⟨st, -, h⟩ := takeCapture_cases s i w <;> rw [h]
  · exact (raiseReference ..).trans (of_same rfl rfl)
  · exact (deliverResponse ..).trans (of_same rfl rfl)

theorem takeRelease_portLawEnd {s t : State} (h : KeepsPortLaw s t) (i : LaneIndex) (w : LaneWork) (c : Capture) :
    PortLawEnd s (t.takeRelease i w c) := by
  obtain ⟨c', -, -, hc⟩ | ⟨-, hc⟩ := takeRelease_cases t i w c <;> rw [hc]
  · exact ((h.trans (.dropReference ..)).trans (.deliverResponse ..)).trans (.of_same rfl rfl)
  · trivial

theorem lookupCommand_portLawEnd (p : Port) (k : CommandKind) (s : State) : PortLawEnd s (lookupCommand p k s) := by
  unfold lookupCommand
  split
  · next i t _ hsv =>
    have served : KeepsPortLaw s t := by
      unfold State.servingLane at hsv
      split at hsv
      · obtain ⟨-, rfl⟩ : _ ∧ s = t := by simpa using hsv
        exact .refl s
      · split at hsv
        · exact .grantLane hsv
        · cases hsv
    split
    · exact unchanged_portLawEnd s
    · next w _ =>
      have captured := served.trans (.takeCapture t i w)
      split
      · exact takeRelease_portLawEnd served ..
      · dsimp only
        split
        · exact takeRelease_portLawEnd captured ..
        · exact captured.portLawEnd
  · exact unchanged_portLawEnd s

theorem execLaneGrant_portLawEnd (s : State) : PortLawEnd s (execLaneGrant s) := by
  unfold execLaneGrant
  split
  · exact (KeepsPortLaw.grantLane ‹_›).portLawEnd
  · exact unchanged_portLawEnd s

theorem execCaptureClaim_portLawEnd (i : LaneIndex) (s : State) : PortLawEnd s (execCaptureClaim i s) := by
  unfold execCaptureClaim
  split
  · split
    · exact (KeepsPortLaw.takeCapture ..).portLawEnd
    · exact unchanged_portLawEnd s
  · exact unchanged_portLawEnd s

theorem execReleaseClaim_portLawEnd (i : LaneIndex) (s : State) : PortLawEnd s (execReleaseClaim i s) := by
  unfold execReleaseClaim
  split
  · split
    · exact takeRelease_portLawEnd (.refl s) ..
    · exact unchanged_portLawEnd s
  · exact unchanged_portLawEnd s

/-! ### The Table Manager's other claims -/

theorem KeepsPortLaw.signalTeardownDone (s : State) (p : Port) : KeepsPortLaw s (s.signalTeardownDone p) :=
  updPort id rfl

theorem KeepsPortLaw.takeRequest (s : State) (p : Port) : KeepsPortLaw s (s.takeRequest p) := by
  unfold State.takeRequest
  split
  · exact setSession ..
  · exact refl s
  · exact signalTeardownDone ..

theorem KeepsPortLaw.finishTeardown (s : State) (p : Port) : KeepsPortLaw s (s.finishTeardown p) := by
  unfold State.finishTeardown
  split
  · exact ((teardown ..).trans (setSession ..)).trans (signalTeardownDone ..)
  · exact refl s
  · exact refl s

theorem execTeardownRequest_portLawEnd (p : Port) (s : State) : PortLawEnd s (execTeardownRequest p s) := by
  unfold execTeardownRequest
  split
  · split
    · exact KeepsPortLaw.after (.takeRequest ..) rfl rfl
    · exact unchanged_portLawEnd s
  · exact unchanged_portLawEnd s

theorem execPendingTeardown_portLawEnd (p : Port) (s : State) : PortLawEnd s (execPendingTeardown p s) := by
  unfold execPendingTeardown
  split
  · exact (KeepsPortLaw.finishTeardown s p).portLawEnd
  · exact unchanged_portLawEnd s

theorem execBuildIdleExpiry_portLawEnd (h : Handle) (s : State) : PortLawEnd s (execBuildIdleExpiry h s) := by
  unfold execBuildIdleExpiry State.expireBuild
  dsimp only
  repeat' split
  · exact (KeepsPortLaw.discardBuild ..).trans (.deliverEvent ..)
  · exact (KeepsPortLaw.discardBuild ..).portLawEnd
  · exact unchanged_portLawEnd s
  · exact unchanged_portLawEnd s

theorem execProposalExpiry_portLawEnd (e : ProposalIndex) (s : State) : PortLawEnd s (execProposalExpiry e s) := by
  unfold execProposalExpiry
  repeat' split
  · exact (KeepsPortLaw.resolve ..).portLawEnd
  · exact unchanged_portLawEnd s
  · exact unchanged_portLawEnd s

theorem execLeaseExpiry_portLawEnd (e : LeaseIndex) (s : State) : PortLawEnd s (execLeaseExpiry e s) := by
  unfold execLeaseExpiry State.expireLease
  dsimp only
  repeat' split
  · exact (KeepsPortLaw.removeLease ..).trans (.deliverEvent ..)
  · exact (KeepsPortLaw.removeLease ..).portLawEnd
  · exact unchanged_portLawEnd s
  · exact unchanged_portLawEnd s

theorem execBurnCompletion_portLawEnd (s : State) : PortLawEnd s (execBurnCompletion s) := by
  unfold execBurnCompletion State.completeBurn
  dsimp only
  repeat' split
  · exact KeepsPortLaw.after (.deliverResponse ..) rfl rfl
  · exact KeepsPortLaw.of_same rfl rfl
  · exact unchanged_portLawEnd s

/-! ### The link and the lines -/

theorem transaction_portLawEnd (p : Port) (kind : Byte) (bs : List Byte) (c : Clocking) (s : State) :
    PortLawEnd s (transaction p kind bs c s) := by
  obtain h | ⟨x, hx, -, h⟩ := transaction_cases p kind bs c s <;> rw [h]
  · exact unchanged_portLawEnd s
  · exact (KeepsPortLaw.setPort (fun law => transact_law law hx) (LinkKeeps.transact hx).attached).portLawEnd

theorem linkRow_portLawEnd {c : Instr} {p : Port} (h : linkRow c = some p) (s : State) : PortLawEnd s (exec c s) := by
  obtain he | ⟨kind, bs, cl, he⟩ := linkRow_transaction h s <;> rw [he]
  · exact unchanged_portLawEnd s
  · exact transaction_portLawEnd ..

/-- A port that is emptied, with at most a command in execution and nothing promised, is within its laws (R157, R161). -/
theorem law_of_emptied {x : PortState} (hp : x.promised = 0) (hq : x.cmdQueue = []) (hr : x.respQueue = [])
    (he : x.events = []) (hl : x.attn = x.lost) : x.law := by
  refine ⟨?_, by simp [he], by simp [PortState.wantsAttention, hr, he, hl]⟩
  have := Option.length_toList_le (o := x.inExec)
  simp only [window_eq, hp, hq, hr, List.length_nil]
  omega

/-- A transaction discarded is a transaction in which nothing is promised. -/
theorem promised_discarded (x : PortState) (cut : Byte) (y : PortState) (h : y.txn = x.txn.map (Txn.discarded cut)) :
    y.promised = 0 := by
  cases ht : x.txn with
  | none => exact promised_of_none (by rw [h, ht]; rfl)
  | some t => exact promised_of_some (t := t.discarded cut) (by rw [h, ht]; rfl)

theorem reset_law (p : Port) (x : PortState) : (x.reset p).law :=
  law_of_emptied (promised_discarded x _ _ rfl) rfl rfl rfl rfl

theorem deviceReset_law (p : Port) (x : PortState) : (x.deviceReset p).law :=
  law_of_emptied (promised_discarded x _ _ rfl) rfl rfl rfl rfl

theorem KeepsPortLaw.resetPort (s : State) (p : Port) : KeepsPortLaw s (s.resetPort p) := by
  have emptied : KeepsPortLaw s (s.updPort p (PortState.reset p)) := updPort (fun _ => reset_law p _) rfl
  unfold State.resetPort
  dsimp only
  split
  · exact (emptied.trans (updPort id rfl)).trans (presentRequest ..)
  · exact emptied

theorem KeepsPortLaw.passBefore (s : State) (p : Port) : KeepsPortLaw s (s.passBefore p) := by
  unfold State.passBefore
  split
  · next h =>
    obtain ⟨f, hf⟩ := Option.isSome_iff_exists.1 h
    exact takeCommand hf
  · exact refl s

theorem execPrstnAsserted_portLawEnd (p : Port) (headPassed : Bool) (s : State) :
    PortLawEnd s (execPrstnAsserted p headPassed s) := by
  have low : KeepsPortLaw s (s.updPort p fun x => { x with prstnLow := true }) := .updPort id rfl
  unfold execPrstnAsserted
  dsimp only
  split
  · exact unchanged_portLawEnd s
  · split
    · split
      · exact (low.trans (.passBefore ..)).trans (.resetPort ..)
      · exact low.trans (.resetPort ..)
    · exact low.portLawEnd

theorem execPrstnReleased_portLawEnd (p : Port) (s : State) : PortLawEnd s (execPrstnReleased p s) := by
  unfold execPrstnReleased
  repeat' split
  · exact unchanged_portLawEnd s
  · exact (KeepsPortLaw.updPort id rfl).portLawEnd
  · exact (KeepsPortLaw.updPort id rfl).portLawEnd

/-! ### Resets and start-ups -/

/-- At a device reset every port is emptied, and keeps the state of its session entry (R161). -/
theorem KeepsPortLaw.enterReset (s : State) (x : Phase) : KeepsPortLaw s (s.enterReset x) where
  portLaw law p := by
    have attached : (s.enterReset x).isAttached p = s.isAttached p := by rw [enterReset_frame]; rfl
    rw [enterReset_port, attached]
    exact ⟨deviceReset_law p _, (law p).2⟩

theorem execRstnAsserted_portLawEnd (s : State) : PortLawEnd s (execRstnAsserted s) := by
  unfold execRstnAsserted
  split
  · exact unchanged_portLawEnd s
  · exact (KeepsPortLaw.enterReset s (.inReset s.assertedKind)).trans (.of_same rfl rfl)

theorem execRstnReleased_portLawEnd (s : State) : PortLawEnd s (execRstnReleased s) := by
  unfold execRstnReleased
  repeat' split
  · exact unchanged_portLawEnd s
  all_goals exact KeepsPortLaw.of_same rfl rfl

theorem execPowerOn_portLawEnd (s : State) : PortLawEnd s (execPowerOn s) := by
  unfold execPowerOn
  dsimp only
  split <;> exact (KeepsPortLaw.enterReset s (.inReset .cold)).trans (.of_same rfl rfl)

/-- A port whose shadow value has been loaded may have no transaction any more (R160). -/
theorem roled_law {x : PortState} (h : x.law) (enabled : Bool) : (x.roled enabled).law := by
  cases enabled with
  | true => exact h
  | false => exact (law_of_none rfl).2 h.lawFor_zero

theorem KeepsPortLaw.loadOptions (s : State) : KeepsPortLaw s s.loadOptions where
  portLaw law p := by
    have attached : s.loadOptions.isAttached p = s.isAttached p := by rw [loadOptions_frame]; rfl
    rw [loadOptions_port, attached]
    exact ⟨roled_law (law p).1 _, (law p).2⟩

theorem KeepsPortLaw.tick (s : State) : KeepsPortLaw s s.tick := by
  obtain h | h | ⟨-, h⟩ := tick_cases s <;> rw [h]
  · exact refl s
  · exact of_same rfl rfl
  · exact (loadOptions s).trans (of_same rfl rfl)

/-- A port when start-up completes is within its laws, since a transaction under way promises nothing that the window
could not take: the window is empty (R178). -/
theorem started_law (enabled : Bool) (x : PortState) : (x.started enabled).law := by
  refine ⟨?_, Nat.zero_le _, rfl⟩
  have empty : (x.started enabled).window = 0 := rfl
  have promised : (x.started enabled).promised ≤ 1 := by
    unfold PortState.promised
    split <;> decide
  omega

/-- Ports as at the end of a start-up under session entries that are not ATTACHED (R128, R129). -/
theorem portLaw_of_started {s : State} (h : ∀ p, ∃ enabled x, s.port p = PortState.started enabled x)
    (hd : ∀ p, s.isAttached p = false) : s.portLaw := fun p => by
  obtain ⟨enabled, x, hp⟩ := h p
  rw [hp, hd p]
  exact ⟨started_law enabled x, rfl⟩

theorem coldStart_portLaw (s : State) : s.coldStart.portLaw := by
  have port (p : Port) : s.coldStart.port p = s.loadOptions.startCommon.port p := by
    unfold State.coldStart
    generalize s.loadOptions.startCommon = t
    simp only [State.port]
  have session (p : Port) : s.coldStart.session p = SessionEntry.initial := by
    unfold State.coldStart
    generalize s.loadOptions.startCommon = t
    exact Vector.getElem_replicate _
  refine portLaw_of_started (fun p => ⟨_, _, (port p).trans (startCommon_port ..)⟩) fun p => ?_
  rw [State.isAttached, State.currentSession, session]
  rfl

theorem warmStart_portLaw (s : State) : s.warmStart.portLaw := by
  have session (p : Port) : (s.warmStart.session p).state = .detached := by
    unfold State.warmStart
    generalize s.startCommon = t
    simp [State.session]
  refine portLaw_of_started (fun p => ⟨_, _, warmStart_port s p⟩) fun p => ?_
  rw [State.isAttached, State.currentSession, session]
  rfl

theorem execColdStartUp_portLawEnd (s : State) : PortLawEnd s (execColdStartUp s) := by
  unfold execColdStartUp
  split
  · exact (KeepsPortLaw.mk fun _ => coldStart_portLaw s).portLawEnd
  all_goals exact unchanged_portLawEnd s

theorem execWarmStartUp_portLawEnd (s : State) : PortLawEnd s (execWarmStartUp s) := by
  unfold execWarmStartUp
  split
  · exact (KeepsPortLaw.mk fun _ => warmStart_portLaw s).portLawEnd
  all_goals exact unchanged_portLawEnd s

/-! ### Every row -/

theorem exec_portLawEnd (c : Instr) (s : State) : PortLawEnd s (exec c s) := by
  have control {p : Port} {k : CommandKind} (h : controlRow c = some (p, k)) : PortLawEnd s (exec c s) := by
    obtain ⟨body, hb, he⟩ := controlRow_keepsPortLaw h
    rw [he]
    exact controlCommand_portLawEnd hb s
  cases c with
  | lookup p => exact lookupCommand_portLawEnd p .lookup s
  | lookupBatch p => exact lookupCommand_portLawEnd p .lookupBatch s
  | burnCompletion => exact execBurnCompletion_portLawEnd s
  | laneGrant => exact execLaneGrant_portLawEnd s
  | captureClaim i => exact execCaptureClaim_portLawEnd i s
  | releaseClaim i => exact execReleaseClaim_portLawEnd i s
  | teardownRequest p => exact execTeardownRequest_portLawEnd p s
  | pendingTeardown p => exact execPendingTeardown_portLawEnd p s
  | buildIdleExpiry h => exact execBuildIdleExpiry_portLawEnd h s
  | proposalExpiry e => exact execProposalExpiry_portLawEnd e s
  | leaseExpiry e => exact execLeaseExpiry_portLawEnd e s
  | post | fetch | refetch | drain | status | unknownTransactionKind => exact linkRow_portLawEnd rfl s
  | prstnAsserted p b => exact execPrstnAsserted_portLawEnd p b s
  | prstnReleased p => exact execPrstnReleased_portLawEnd p s
  | rstnAsserted => exact execRstnAsserted_portLawEnd s
  | rstnReleased => exact execRstnReleased_portLawEnd s
  | powerOn => exact execPowerOn_portLawEnd s
  | coldStartUp => exact execColdStartUp_portLawEnd s
  | warmStartUp => exact execWarmStartUp_portLawEnd s
  | attach | detach | defineTable | tableInfo | proposeRetire | storeInfo | openBuild | appendPoints | closeBuild
  | cancelBuild | approve | veto | withdraw | hold | renew | release | readPoints | readOptions | programOption
  | closeProvisioning => exact control rfl

/-- Settles O54: the tick and every row keep the laws of the ports. -/
theorem portLawsKept : Obligations.PortLawsKept := by
  intro s t law h
  unfold step at h
  split at h
  · obtain rfl := Host.Outcome.next.inj h
    exact (KeepsPortLaw.tick s).portLaw law
  · next c rest _ =>
    have row := exec_portLawEnd c { s with pending := rest }
    rw [h] at row
    exact row.portLaw law

end Sys2Proof.Machine
end

section
/-! Port resets (R151, R157 to R160): what the arbiter does not see of a port, and the port that PRSTN empties. -/

namespace Sys2Proof.Machine

/-! ### What an adoption made now does not look at -/

/-- Whether the opening of a change makes an adoption is said by the approvers alone (R84). -/
theorem openChange_outcome_congr {s t : State} {k : SlotIndex} (h : t.slot k = s.slot k) (c : Change) (p : Port)
    (n : Session) : (t.openChange k c p n).2 = (s.openChange k c p n).2 := by
  have approvers : t.maskOf k (·.approvers) = s.maskOf k (·.approvers) := by rw [State.maskOf, h]; rfl
  rw [openChange_outcome, openChange_outcome, approvers]

section
variable (s : State) (p q : Port) (x : PortState) (f : Frame)

theorem approveBody_isAdoption_setPort :
    (approveBody p f (s.setPort q x)).isAdoption = (approveBody p f s).isAdoption := by
  have checks : (s.setPort q x).approverChecks p f.payload = s.approverChecks p f.payload := rfl
  simp only [approveBody, checks]
  cases s.approverChecks p f.payload with
  | error st => rfl
  | ok a =>
    obtain ⟨n, e, q⟩ := a
    dsimp only
    split <;> rfl

theorem proposeRetireBody_isAdoption_setPort :
    (proposeRetireBody p f (s.setPort q x)).isAdoption = (proposeRetireBody p f s).isAdoption := by
  have session : (s.setPort q x).currentSession p = s.currentSession p := rfl
  have free : (s.setPort q x).freeProposalIndex = s.freeProposalIndex := rfl
  have outcome (k : SlotIndex) (n : Session) :
      ((s.setPort q x).openChange k .retire p n).2 = (s.openChange k .retire p n).2 :=
    openChange_outcome_congr (State.slot_setPort ..) ..
  simp only [proposeRetireBody, session, free, State.slot_setPort]
  cases s.currentSession p with
  | none => rfl
  | some n =>
    dsimp only
    cases slotArg f.payload with
    | none => rfl
    | some k =>
      dsimp only
      cases (s.slot k).state with
      | vacant | retiring d => rfl
      | defined d | live d r =>
        dsimp only
        repeat' split
        all_goals simp only [refuse, CommandResult.isAdoption, outcome]

theorem closeBuildBody_isAdoption_setPort :
    (closeBuildBody p f (s.setPort q x)).isAdoption = (closeBuildBody p f s).isAdoption := by
  have session : (s.setPort q x).currentSession p = s.currentSession p := rfl
  have build (h : Handle) : (s.setPort q x).buildOf p h = s.buildOf p h := rfl
  have free : (s.setPort q x).freeProposalIndex = s.freeProposalIndex := rfl
  have approvers (k : SlotIndex) : (s.setPort q x).maskOf k (·.approvers) = s.maskOf k (·.approvers) := rfl
  have outcome (n : Session) (h : Handle) (b : BuildContext) (g : GenRecord) (sum : Word) :
      (((s.setPort q x).finishBuild h b g sum).openChange b.slot (.commit b.record) p n).2
        = ((s.finishBuild h b g sum).openChange b.slot (.commit b.record) p n).2 := by
    simp only [openChange_outcome, maskOf_finishBuild, approvers]
  simp only [closeBuildBody, session, build, free, approvers, State.record_setPort, State.setPort_store]
  cases s.currentSession p with
  | none => rfl
  | some n =>
    dsimp only
    cases closeArgs f.payload with
    | none => rfl
    | some a =>
      obtain ⟨h, expected⟩ := a
      dsimp only
      cases s.buildOf p h with
      | none => rfl
      | some b =>
        dsimp only
        cases s.record b.record with
        | none => rfl
        | some g =>
          dsimp only
          cases g.points s.store with
          | none =>
            dsimp only
            split <;> rfl
          | some ps =>
            dsimp only
            repeat' split
            all_goals simp only [refuse, CommandResult.isAdoption, outcome]

theorem adoptsNow_setPort : (s.setPort q x).adoptsNow p f = s.adoptsNow p f := by
  unfold State.adoptsNow
  rw [approveBody_isAdoption_setPort, closeBuildBody_isAdoption_setPort, proposeRetireBody_isAdoption_setPort]

theorem meetsTeardown_setPort (r : Port) : (s.setPort q x).meetsTeardown p f r = s.meetsTeardown p f r := by
  unfold State.meetsTeardown
  rw [adoptsNow_setPort]
  rfl

end

/-! ### What the arbiter does not look at -/

section
variable {s : State} {q : Port} {x : PortState} (hc : x.cmdQueue = (s.port q).cmdQueue)
  (he : x.inExec = (s.port q).inExec) (hr : x.resetting = (s.port q).resetting)

include he in
theorem port_setPort_inExec (p : Port) : ((s.setPort q x).port p).inExec = (s.port p).inExec := by
  rw [State.port_setPort_ite]
  split
  · next hp => rw [he, hp]
  · rfl

include hc in
theorem port_setPort_cmdQueue (p : Port) : ((s.setPort q x).port p).cmdQueue = (s.port p).cmdQueue := by
  rw [State.port_setPort_ite]
  split
  · next hp => rw [hc, hp]
  · rfl

include hr in
theorem port_setPort_resetting (p : Port) : ((s.setPort q x).port p).resetting = (s.port p).resetting := by
  rw [State.port_setPort_ite]
  split
  · next hp => rw [hr, hp]
  · rfl

include he in
theorem takesTeardowns_setPort : (s.setPort q x).takesTeardowns = s.takesTeardowns := by
  have carrying : (s.setPort q x).carrying = s.carrying := by
    simp only [State.carrying, port_setPort_inExec he, State.setPort_burn]
  unfold State.takesTeardowns State.takesExpiries State.takesClaims
  rw [carrying]
  rfl

include he in
theorem takesCommand_setPort (p : Port) (f : Frame) : (s.setPort q x).takesCommand p f = s.takesCommand p f := by
  simp only [State.takesCommand, takesTeardowns_setPort he, meetsTeardown_setPort]
  rfl

include hc he hr in
/-- The head command that the Table Manager takes is said by the queues, the commands in execution and the reset states
(R133, R134). -/
theorem nextCommand_setPort (p : Port) : (s.setPort q x).nextCommand p = s.nextCommand p := by
  have eligible (r : Port) : (s.setPort q x).controlEligible r = s.controlEligible r := by
    simp only [State.controlEligible, State.mayPass, port_setPort_inExec he, port_setPort_cmdQueue hc,
      port_setPort_resetting hr]
    rfl
  have choice : (s.setPort q x).controlChoice = s.controlChoice := by
    rw [State.controlChoice, funext eligible]
    rfl
  have takes : (s.setPort q x).takesCommand p = s.takesCommand p := funext (takesCommand_setPort he p)
  rw [State.nextCommand, choice, port_setPort_cmdQueue hc, takes]
  rfl

end

/-! ### The port that PRSTN empties (R157) -/

/-- A port after a port reset, with this command in execution. -/
def PortState.emptiedBy (p : Port) (x : PortState) (e : Option Execution) : PortState :=
  { x with
    txn := x.txn.map (fun t => { t with
      phase := .rest
      out := t.out.map (fun b => if t.phase = .rest ∨ b = 0x00 then b else Config.cutByte p.val x.cuts) })
    cuts := if x.txn.any (fun t => decide (t.phase ≠ .rest) && t.out.any (fun b => b != 0x00)) then x.cuts + 1
      else x.cuts
    cmdQueue := [], inExec := e, respQueue := [], lastFetched := none, events := [], lost := false
    resetting := true, teardownOutstanding := x.teardownOutstanding || x.attached, attn := false, prstnLow := true }

/-- A port reset taken while PRSTN is low (R157). -/
theorem resetPort_of_low {s : State} {p : Port} (hp : (s.port p).prstnLow = true) :
    s.resetPort p = { s.setPort p ((s.port p).emptiedBy p ((s.port p).inExec.map (fun e => ⟨e.frame, true⟩))) with
      requests := if (s.port p).attached then s.requests ++ [p] else s.requests } := by
  have reset : PortState.reset p (s.port p) =
      { (s.port p).emptiedBy p ((s.port p).inExec.map (fun e => ⟨e.frame, true⟩)) with
        teardownOutstanding := (s.port p).teardownOutstanding } := by
    rw [PortState.reset, discardTxn_eq]
    simp only [PortState.emptiedBy, PortState.reevaluate, PortState.wantsAttention, hp]
    rfl
  cases ha : (s.port p).attached with
  | true =>
    simp only [State.resetPort, ha, State.updPort, reset, State.port_setPort_self, State.setPort_setPort, if_true,
      State.presentRequest, State.setPort_requests, PortState.emptiedBy, Bool.or_true]
  | false =>
    simp only [State.resetPort, ha, State.updPort, reset, PortState.emptiedBy, Bool.or_false]
    rfl

theorem nextCommand_of_low (s : State) (p : Port) :
    (s.setPort p { s.port p with prstnLow := true }).nextCommand p = s.nextCommand p :=
  nextCommand_setPort (q := p) (x := { s.port p with prstnLow := true }) rfl rfl rfl p

section
variable {s : State} {p : Port}

/-- An edge of PRSTN on a port that does not attend to it (R160, R177). -/
theorem ignored_iff : (s.isRunning && s.isEnabled p) = false ↔ s.phase ≠ .running ∨ s.isEnabled p = false := by
  simp [State.isRunning, imp_iff_not_or]

theorem execPrstnAsserted_of_ignored (hi : s.phase ≠ .running ∨ s.isEnabled p = false)
    (hp : (s.port p).prstnLow = false) (headPassed : Bool) :
    exec (.prstnAsserted p headPassed) s = .next (s.setPort p { s.port p with prstnLow := true }) := by
  simp only [exec, execPrstnAsserted, hp, ignored_iff.2 hi]
  rfl

theorem execPrstnReleased_of_ignored (hi : s.phase ≠ .running ∨ s.isEnabled p = false)
    (hp : (s.port p).prstnLow = true) :
    exec (.prstnReleased p) s = .next (s.setPort p { s.port p with prstnLow := false }) := by
  simp only [exec, execPrstnReleased, hp, ignored_iff.2 hi]
  rfl

variable (hr : s.phase = .running) (he : s.isEnabled p = true)
include hr he

theorem execPrstnReleased_of_attended (hp : (s.port p).prstnLow = true) :
    exec (.prstnReleased p) s = .next (s.setPort p { s.port p with
      prstnLow := false, resetting := (s.port p).resetting && (s.port p).teardownOutstanding }) := by
  simp only [exec, execPrstnReleased, hp, State.isRunning, hr, he]
  rfl

variable (hp : (s.port p).prstnLow = false)
include hp

/-- PRSTN falls on a port that attends to it, and a head command passes first or not (R151, R157). -/
theorem execPrstnAsserted_of_attended (headPassed : Bool) :
    exec (.prstnAsserted p headPassed) s = .next
      ((if headPassed then (s.setPort p { s.port p with prstnLow := true }).passBefore p
        else s.setPort p { s.port p with prstnLow := true }).resetPort p) := by
  simp only [exec, execPrstnAsserted, hp, State.isRunning, hr, he]
  rfl

theorem execPrstnAsserted_alone : exec (.prstnAsserted p false) s = .next
    { s.setPort p ((s.port p).emptiedBy p ((s.port p).inExec.map (fun e => ⟨e.frame, true⟩))) with
      requests := if (s.port p).attached then s.requests ++ [p] else s.requests } := by
  rw [execPrstnAsserted_of_attended hr he hp, if_neg Bool.false_ne_true, resetPort_of_low (by simp)]
  simp only [State.port_setPort_self, State.setPort_setPort, State.setPort_requests]
  rfl

theorem execPrstnAsserted_no_head (hn : s.nextCommand p = none) :
    exec (.prstnAsserted p true) s = exec (.prstnAsserted p false) s := by
  rw [execPrstnAsserted_of_attended hr he hp, execPrstnAsserted_of_attended hr he hp, State.passBefore,
    nextCommand_of_low, hn]
  rfl

theorem execPrstnAsserted_head {f : Frame} (hn : s.nextCommand p = some f) : exec (.prstnAsserted p true) s = .next
    { s.setPort p ((s.port p).emptiedBy p (some ⟨f, true⟩)) with
      requests := if (s.port p).attached then s.requests ++ [p] else s.requests, controlPtr := p + 1 } := by
  have next_low := (nextCommand_of_low s p).trans hn
  rw [execPrstnAsserted_of_attended hr he hp, if_pos rfl, State.passBefore, if_pos (by rw [next_low]; rfl),
    takeCommand_of_head (nextCommand_iff.1 next_low).2.1]
  simp only [State.port_setPort_self, State.setPort_setPort]
  generalize hx : { s.port p with
    cmdQueue := (s.port p).cmdQueue.tail, inExec := some ⟨f, false⟩, prstnLow := true } = x
  have port : ({ s.setPort p x with controlPtr := p + 1 } : State).port p = x := State.port_setPort_self ..
  rw [resetPort_of_low (by rw [port, ← hx]), port]
  simp only [State.setPort, Vector.set_set]
  subst hx
  rfl

end

/-- Settles O48: a port that attends to PRSTN is emptied by its fall and, with no teardown outstanding, NORMAL after its
rise; on any other port the line alone moves. -/
theorem portResetEmptiesPort : Obligations.PortResetEmptiesPort := by
  intro s p
  refine ⟨fun running enabled high => ⟨?_, ?_, fun f hf => ?_⟩, fun running enabled low => ?_,
    fun ignored => ⟨fun low => ?_, fun high headPassed => ?_⟩⟩
  · exact execPrstnAsserted_alone running enabled high
  · exact execPrstnAsserted_no_head running enabled high
  · exact execPrstnAsserted_head running enabled high hf
  · exact execPrstnReleased_of_attended running enabled low
  · exact execPrstnReleased_of_ignored ignored low
  · exact execPrstnAsserted_of_ignored ignored high headPassed

end Sys2Proof.Machine
end

section
/-! A transaction clocked in one step, from CSN falling to CSN rising: the bytes that go out and what becomes of the port,
phase by phase (R144 to R155). -/

namespace Sys2Proof.Machine

/-! ### Bytes and what follows them -/

/-- The first `n` bytes sent of a transaction that has these to send: 0x00 goes out after them. -/
def padded (bytes : List Byte) (n : Nat) : List Byte := (bytes ++ List.replicate n 0x00).take n

theorem padded_zero (bytes : List Byte) : padded bytes 0 = [] := rfl

theorem padded_nil (n : Nat) : padded [] n = List.replicate n 0x00 := by
  simp [padded]

theorem padded_cons (b : Byte) (bytes : List Byte) (n : Nat) : padded (b :: bytes) (n + 1) = b :: padded bytes n := by
  simp only [padded, List.cons_append, List.take_succ_cons, List.replicate_succ', ← List.append_assoc]
  rw [List.take_append_of_le_length (by simp)]

theorem padded_zeros (k n : Nat) : padded (List.replicate k 0x00) n = List.replicate n 0x00 := by
  simp [padded, List.replicate_append_replicate]

/-! ### A transaction under way -/

/-- What goes out while the next byte is clocked in, in a phase of a transaction (R144 to R155). -/
def PortState.sends (x : PortState) (ph : TxnPhase) : Byte := x.nextOut ⟨none, ph, none⟩

/-- A port after the bytes `bs` of a transaction in this phase, when `sent` has gone out before them and CSN rises
after them. -/
def PortState.carried (x : PortState) (running : Bool) (kind : Byte) (ph : TxnPhase) (sent bs : List Byte) : PortState :=
  { bs.foldl (PortState.clockByte running) { x with sent := sent, txn := some ⟨some kind, ph, none⟩ } with txn := none }

/-- A port after a transaction in which these bytes went out. -/
def PortState.ended (x : PortState) (sent : List Byte) : PortState := { x with sent := sent, txn := none }

section
variable (x : PortState) (running : Bool) (kind : Byte) (ph : TxnPhase) (sent : List Byte)

theorem carried_nil : x.carried running kind ph sent [] = x.ended sent := rfl

/-- The eighth bit of a byte looks at neither the bytes sent nor the transaction in progress. -/
theorem clockByte_during (b : Byte) :
    PortState.clockByte running { x with sent := sent, txn := some ⟨some kind, ph, none⟩ } b =
      { (x.endPhase running b (x.sends ph) ph).1 with
        sent := sent ++ [x.sends ph]
        txn := some ⟨some kind, (x.endPhase running b (x.sends ph) ph).2, none⟩ } := by
  have out : ({ x with sent := sent, txn := some ⟨some kind, ph, none⟩ } : PortState).nextOut ⟨some kind, ph, none⟩
      = x.sends ph := by cases ph <;> rfl
  simp only [PortState.clockByte, Option.getD_none, out]
  cases ph with
  | fetch left =>
    rw [endPhase_fetch, endPhase_fetch]
    split
    · simp only [PortState.completeFetch]
      split <;> rfl
    · rfl
  | send left =>
    rw [endPhase_send, endPhase_send]
    rfl
  | drainRecord left pos acc =>
    simp only [PortState.endPhase]
    split <;> rfl
  | drainLost acc dropped =>
    simp only [PortState.endPhase]
    split <;> rfl
  | select | post | accepting | rejecting | drainCount | drainCheck | rest => rfl

theorem carried_cons (b : Byte) (bs : List Byte) : x.carried running kind ph sent (b :: bs) =
    (x.endPhase running b (x.sends ph) ph).1.carried running kind (x.endPhase running b (x.sends ph) ph).2
      (sent ++ [x.sends ph]) bs := by
  simp only [PortState.carried, List.foldl_cons, clockByte_during]

end

section
variable (x : PortState) (running : Bool) (kind : Byte) (sent : List Byte)

/-- Nothing more to do (R144). -/
theorem carried_rest (bs : List Byte) :
    x.carried running kind .rest sent bs = x.ended (sent ++ List.replicate bs.length 0x00) := by
  induction bs generalizing sent with
  | nil => simp [carried_nil]
  | cons b bs ih =>
    rw [carried_cons]
    refine (ih (sent ++ [0x00])).trans ?_
    simp [List.replicate_succ]

/-- The bytes of REFETCH and of the empty marker (R153, R154). -/
theorem carried_send {left : List Byte} (hl : left ≠ []) (bs : List Byte) :
    x.carried running kind (.send left) sent bs = x.ended (sent ++ padded left bs.length) := by
  induction bs generalizing sent left with
  | nil => simp [carried_nil, padded_zero]
  | cons b bs ih =>
    obtain ⟨o, more, rfl⟩ := List.exists_cons_of_ne_nil hl
    have out : x.sends (.send (o :: more)) = o := rfl
    rw [carried_cons, endPhase_send, out, List.length_cons, padded_cons, List.tail_cons]
    split
    · next hm => rw [carried_rest, hm, padded_nil, List.append_assoc, List.singleton_append]
    · next hm => rw [ih _ hm, List.append_assoc, List.singleton_append]

/-- The bytes of FETCH, the last of which completes it (R153). -/
theorem carried_fetch {left : List Byte} (hl : left ≠ []) (bs : List Byte) :
    x.carried running kind (.fetch left) sent bs =
      (if left.length ≤ bs.length then x.completeFetch else x).ended (sent ++ padded left bs.length) := by
  induction bs generalizing sent left with
  | nil => simp [carried_nil, padded_zero, hl]
  | cons b bs ih =>
    obtain ⟨o, more, rfl⟩ := List.exists_cons_of_ne_nil hl
    have out : x.sends (.fetch (o :: more)) = o := rfl
    rw [carried_cons, endPhase_fetch, out, List.tail_cons]
    simp only [List.length_cons, padded_cons, Nat.add_le_add_iff_right]
    split
    · next hm => simp [carried_rest, hm, padded_nil]
    · next hm => simp [ih _ hm]

end

/-! ### The rows of the link -/

/-- The status byte that goes out as the kind byte comes in (R145, R161). -/
def State.shownStatus (s : State) (p : Port) : Byte := if s.phase = .running then (s.port p).statusByte else 0x00

/-- A transaction of one step, on an enabled port with CSN high. -/
theorem transaction_closed {s : State} {p : Port} (he : s.isEnabled p = true) (hi : (s.port p).txn = none) (kind : Byte)
    (bs : List Byte) : transaction p kind bs .closed s = .next (s.setPort p ((s.port p).carried s.isRunning kind
      ((s.port p).choose s.isRunning kind) [s.shownStatus p] bs)) := by
  have shown : (if s.isRunning then (s.port p).statusByte else 0x00) = s.shownStatus p := by
    simp [State.isRunning, State.shownStatus]
  have kindIn (running : Bool) : PortState.clockByte running ((s.port p).selected running) kind = { s.port p with
      sent := [if running then (s.port p).statusByte else 0x00]
      txn := some ⟨some kind, (s.port p).choose running kind, none⟩ } := rfl
  have begun : (s.port p).transact s.isRunning kind bs .closed = some ((s.port p).carried s.isRunning kind
      ((s.port p).choose s.isRunning kind) [s.shownStatus p] bs) := by
    rw [← shown, PortState.carried, ← kindIn]
    simp only [PortState.transact, hi]
    rfl
  simp only [transaction, he, begun]
  rfl

end Sys2Proof.Machine
end

section
/-! FETCH, REFETCH, STATUS and unknown kinds in one step each, and the status byte (R144 to R146, R153, R154). -/

namespace Sys2Proof.Machine

/-! ### What the kind byte begins (R146, R153, R154) -/

section
variable {x : PortState} {running : Bool}

theorem choose_fetch_empty (h : running = false ∨ x.respQueue = []) : x.choose running 0x02 = .send emptyMarker := by
  obtain rfl | hq := h
  · rfl
  · cases running <;> simp [PortState.choose, hq]

theorem choose_fetch_head {r : Response} {rest : List Response} (hq : x.respQueue = r :: rest) :
    x.choose true 0x02 = .fetch r.bytes := by
  simp [PortState.choose, hq]

theorem choose_refetch_empty (h : running = false ∨ x.lastFetched = none) :
    x.choose running 0x03 = .send emptyMarker := by
  obtain rfl | hl := h
  · rfl
  · cases running <;> simp [PortState.choose, hl]

theorem choose_refetch_last {r : Response} (hl : x.lastFetched = some r) : x.choose true 0x03 = .send r.bytes := by
  simp [PortState.choose, hl]

theorem choose_unknown {kind : Byte} (h1 : kind ≠ 1) (h2 : kind ≠ 2) (h3 : kind ≠ 3) (h4 : kind ≠ 4) :
    x.choose running kind = .rest := by
  simp only [PortState.choose]
  rw [if_neg h1, if_neg h2, if_neg h3, if_neg h4]

end

theorem emptyMarker_ne_nil : emptyMarker ≠ [] := List.cons_ne_nil _ _

theorem response_bytes_ne_nil (r : Response) : r.bytes ≠ [] := by simp [Response.bytes]

/-! ### A transaction that ends in one step -/

section
variable {s : State} {p : Port} (he : s.isEnabled p = true) (hi : (s.port p).txn = none) {kind : Byte} (n : Nat)
include he hi

/-- Of a transaction with nothing to send 0x00 goes out after the status byte. -/
theorem transaction_of_rest (hc : (s.port p).choose s.isRunning kind = .rest) :
    transaction p kind (List.replicate n 0x00) .closed s =
      .next (s.setPort p ((s.port p).ended ([s.shownStatus p] ++ padded [] n))) := by
  rw [transaction_closed he hi, hc, carried_rest, List.length_replicate, padded_nil]

theorem transaction_of_send {bytes : List Byte} (hb : bytes ≠ [])
    (hc : (s.port p).choose s.isRunning kind = .send bytes) :
    transaction p kind (List.replicate n 0x00) .closed s =
      .next (s.setPort p ((s.port p).ended ([s.shownStatus p] ++ padded bytes n))) := by
  rw [transaction_closed he hi, hc, carried_send _ _ _ _ hb, List.length_replicate]

theorem transaction_of_fetch {bytes : List Byte} (hb : bytes ≠ [])
    (hc : (s.port p).choose s.isRunning kind = .fetch bytes) :
    transaction p kind (List.replicate n 0x00) .closed s =
      .next (s.setPort p ((if bytes.length ≤ n then (s.port p).completeFetch else s.port p).ended
        ([s.shownStatus p] ++ padded bytes n))) := by
  rw [transaction_closed he hi, hc, carried_fetch _ _ _ _ hb, List.length_replicate]

/-- A transaction that ends before eight bits of its kind byte are in (R144). -/
theorem transaction_abandoned (kind : Byte) :
    transaction p kind [] .abandoned s = .next (s.setPort p ((s.port p).ended [])) := by
  simp only [transaction, he, PortState.transact, hi]
  rfl

end

theorem isRunning_eq_false {s : State} : s.isRunning = false ↔ s.phase ≠ .running := by
  simp [State.isRunning]

theorem isRunning_eq_true {s : State} : s.isRunning = true ↔ s.phase = .running := by
  simp [State.isRunning]

/-! ### FETCH (R153) -/

/-- Settles O44: the kind byte finds a response or none, and the length says whether its last byte is out. -/
theorem fetchSendsHeadResponse : Obligations.FetchSendsHeadResponse := by
  intro s p n enabled idle
  refine ⟨fun empty => ?_, fun r rest running hq => ?_⟩
  · exact transaction_of_send enabled idle n emptyMarker_ne_nil
      (choose_fetch_empty (empty.imp_left isRunning_eq_false.2))
  · have row := transaction_of_fetch enabled idle n (response_bytes_ne_nil r) (kind := 0x02)
      (by rw [isRunning_eq_true.2 running]; exact choose_fetch_head hq)
    refine ⟨fun (short : n < r.bytes.length) => row.trans ?_, fun (whole : r.bytes.length ≤ n) => row.trans ?_⟩
    · rw [if_neg (Nat.not_le.2 short)]
      rfl
    · rw [if_pos whole, PortState.completeFetch, hq]
      rfl

/-! ### The status byte (R145, R181) -/

/-- The fields of the status byte, by the free count and the four indications. -/
theorem statusByte_fields (free : Fin 9) (resp evt att rst : Bool) :
    let b : Byte := countByte free.val ||| (if resp then 0x10 else 0x00) ||| (if evt then 0x20 else 0x00)
      ||| (if att then 0x40 else 0x00) ||| (if rst then 0x80 else 0x00)
    b.toNat % 16 = free.val ∧ b.getLsbD 4 = resp ∧ b.getLsbD 5 = evt ∧ b.getLsbD 6 = att ∧ b.getLsbD 7 = rst := by
  revert free resp evt att rst
  decide

theorem statusByte_bits (x : PortState) (h : x.window ≤ 8) :
    x.statusByte.toNat % 16 + x.window = 8
    ∧ (x.statusByte.getLsbD 4 = true ↔ x.respQueue ≠ [])
    ∧ (x.statusByte.getLsbD 5 = true ↔ x.events ≠ [] ∨ x.lost = true)
    ∧ (x.statusByte.getLsbD 6 = true ↔ x.attached = true)
    ∧ (x.statusByte.getLsbD 7 = true ↔ x.resetting = true) := by
  have byte : x.statusByte = countByte (8 - x.window) ||| (if !x.respQueue.isEmpty then 0x10 else 0x00)
      ||| (if !x.events.isEmpty || x.lost then 0x20 else 0x00) ||| (if x.attached then 0x40 else 0x00)
      ||| (if x.resetting then 0x80 else 0x00) := by
    unfold PortState.statusByte
    cases x.respQueue.isEmpty <;> rfl
  obtain ⟨free, resp, evt, att, rst⟩ := statusByte_fields ⟨8 - x.window, by omega⟩ (!x.respQueue.isEmpty)
    (!x.events.isEmpty || x.lost) x.attached x.resetting
  rw [← byte] at free resp evt att rst
  dsimp only at free
  refine ⟨by omega, ?_, ?_, ?_, ?_⟩
  · rw [resp]
    simp
  · rw [evt]
    simp
  · rw [att]
  · rw [rst]

/-! ### REFETCH, STATUS, unknown kinds (R146, R154) -/

theorem isTransactionKind_eq_false {kind : Byte} (h1 : kind ≠ 1) (h2 : kind ≠ 2) (h3 : kind ≠ 3) (h4 : kind ≠ 4)
    (h5 : kind ≠ 5) : isTransactionKind kind = false := by
  simp only [isTransactionKind, Bool.or_eq_false_iff, beq_eq_false_iff_ne]
  exact ⟨⟨⟨⟨h1, h2⟩, h3⟩, h4⟩, h5⟩

theorem execUnknown_of_unknown {kind : Byte} (h : isTransactionKind kind = false) (p : Port) (n : Nat) (c : Clocking)
    (s : State) :
    exec (.unknownTransactionKind p kind n c) s = transaction p kind (List.replicate n 0x00) c s := by
  simp only [exec, execUnknownTransactionKind, h]
  rfl

/-- Settles O46: the status byte is made of its fields, and each of these kinds begins the phase of its bytes. -/
theorem quietTransactionsChangeNothing : Obligations.QuietTransactionsChangeNothing := by
  refine ⟨fun x hx => ?_, fun s p n enabled idle => ⟨?_, fun kind h1 h2 h3 h4 h5 => ?_, fun empty => ?_,
    fun r running last => ?_, fun c hc => ?_⟩⟩
  · have window : x.cmdQueue.length + (if x.inExec = none then 0 else 1) + x.respQueue.length = x.window := by
      unfold PortState.window
      cases x.inExec <;> rfl
    rw [window] at hx ⊢
    exact statusByte_bits x hx
  · exact transaction_of_rest enabled idle n (choose_unknown (by decide) (by decide) (by decide) (by decide))
  · refine (execUnknown_of_unknown (isTransactionKind_eq_false h1 h2 h3 h4 h5) p n .closed s).trans ?_
    exact transaction_of_rest enabled idle n (choose_unknown h1 h2 h3 h4)
  · exact transaction_of_send enabled idle n emptyMarker_ne_nil
      (choose_refetch_empty (empty.imp_left isRunning_eq_false.2))
  · exact transaction_of_send enabled idle n (response_bytes_ne_nil r)
      (by rw [isRunning_eq_true.2 running]; exact choose_refetch_last last)
  · have abandoned (kind : Byte) := transaction_abandoned enabled idle kind
    simp only [List.mem_cons, List.not_mem_nil, or_false] at hc
    obtain rfl | rfl | rfl | rfl | rfl | rfl := hc
    all_goals exact abandoned _

end Sys2Proof.Machine
end

section
/-! POST in one step: the frame comes in byte by byte, is judged at its CRC-8 byte, and the accept byte goes out in the byte
more (R147 to R149). -/

namespace Sys2Proof.Machine

/-! ### Command kinds (Table 95) -/

theorem ofCode_code (k : CommandKind) : CommandKind.ofCode k.code = some k := by cases k <;> rfl

theorem ofCode_eq_none {b : Byte} (h : ∀ k : CommandKind, k.code ≠ b) : CommandKind.ofCode b = none := by
  simpa [CommandKind.ofCode, List.find?_eq_none] using fun k _ => h k

/-! ### A frame that comes in (R147) -/

section
variable {kind tag len crc : Byte} {payload : List Byte} (hl : payload.length = len.toNat)
include hl

/-- Short of its CRC-8 byte a frame is not complete. -/
theorem frameComplete_take {m : Nat} (hm : m ≤ payload.length + 3) :
    frameComplete (([kind, tag, len] ++ payload).take m) = false := by
  match m, hm with
  | 0, _ | 1, _ | 2, _ => rfl
  | j + 3, hj =>
    have short : min j payload.length = j := by omega
    have : j + 3 ≠ 4 + len.toNat := by omega
    simpa [frameComplete, short] using this

theorem frameComplete_whole : frameComplete ([kind, tag, len] ++ payload ++ [crc]) = true := by
  simp [frameComplete, hl]
  omega

end

section
variable (x : PortState) (running : Bool) (sent : List Byte)

/-- The bytes of a frame up to one that completes it come in while 0x00 goes out. -/
theorem carried_post {got bs : List Byte} (h : ∀ m, 0 < m → m ≤ bs.length → frameComplete (got ++ bs.take m) = false)
    (more : List Byte) : x.carried running 0x01 (.post got) sent (bs ++ more) =
      x.carried running 0x01 (.post (got ++ bs)) (sent ++ List.replicate bs.length 0x00) more := by
  induction bs generalizing got sent with
  | nil => simp
  | cons b bs ih =>
    have first : frameComplete (got ++ [b]) = false := h 1 Nat.one_pos (by simp)
    have later (m : Nat) (_ : 0 < m) (hm : m ≤ bs.length) : frameComplete (got ++ [b] ++ bs.take m) = false := by
      simpa using h (m + 1) (Nat.succ_pos m) (by simpa using hm)
    have out : x.sends (.post got) = 0x00 := rfl
    rw [List.cons_append, carried_cons, out]
    simp only [PortState.endPhase, first, Bool.false_eq_true, if_false]
    rw [ih _ later]
    simp [List.replicate_succ]

/-- The byte that completes a frame lets it be judged. -/
theorem carried_post_complete {got : List Byte} {crc : Byte} (h : frameComplete (got ++ [crc]) = true)
    (more : List Byte) : x.carried running 0x01 (.post got) sent (crc :: more) =
      x.carried running 0x01 (x.judge running (got ++ [crc])) (sent ++ [0x00]) more := by
  have out : x.sends (.post got) = 0x00 := rfl
  rw [carried_cons, out]
  simp only [PortState.endPhase, h, if_true]

end

/-- How a frame was judged: by its accept code, and accepted by the frame that joins the queue (Table 80). -/
def TxnPhase.verdict : TxnPhase → Byte × List Frame
  | .accepting f => (AcceptCode.accepted.code, [f])
  | .rejecting code => (code.code, [])
  | _ => (0x00, [])

/-- A frame judged is accepted or rejected. -/
theorem judge_cases (x : PortState) (running : Bool) (got : List Byte) :
    (∃ f, x.judge running got = .accepting f) ∨ ∃ code, x.judge running got = .rejecting code := by
  unfold PortState.judge
  dsimp only
  repeat' split
  case isFalse => exact .inl ⟨_, rfl⟩
  all_goals exact .inr ⟨_, rfl⟩

section
variable (x : PortState) (running : Bool) (sent got : List Byte)

/-- The byte more shifts the accept byte out, and with it an accepted frame joins the queue (R149). -/
theorem carried_judged (more : Byte) : x.carried running 0x01 (x.judge running got) sent [more] =
    { x with cmdQueue := x.cmdQueue ++ (x.judge running got).verdict.2 }.ended
      (sent ++ [(x.judge running got).verdict.1]) := by
  obtain ⟨f, h⟩ | ⟨code, h⟩ := judge_cases x running got <;> rw [h, carried_cons]
  · rfl
  · simp only [PortState.endPhase, carried_nil, TxnPhase.verdict, List.append_nil]
    rfl

end

/-! The conditions of Table 80 in their order. -/

theorem judge_of_stopped (x : PortState) (got : List Byte) : x.judge false got = .rejecting .notReady := rfl

section
variable {x : PortState}

theorem judge_of_resetting (h : x.resetting = true) (got : List Byte) :
    x.judge true got = .rejecting .portResetting := by
  simp [PortState.judge, h]

variable (h : x.resetting = false)
include h

theorem judge_of_badCrc {frame : List Byte} {crc : Byte} (hc : crc8 frame ≠ crc) :
    x.judge true (frame ++ [crc]) = .rejecting .crcError := by
  have last : (frame ++ [crc]).getLastD 0 = crc := List.getLastD_concat ..
  simp only [PortState.judge, h, List.dropLast_concat, last, if_pos hc]
  rfl

theorem judge_of_unknownKind {kind tag len crc : Byte} {payload : List Byte}
    (hc : crc8 ([kind, tag, len] ++ payload) = crc) (hk : CommandKind.ofCode kind = none) :
    x.judge true ([kind, tag, len] ++ payload ++ [crc]) = .rejecting .unknownKind := by
  have last : ([kind, tag, len] ++ payload ++ [crc]).getLastD 0 = crc := List.getLastD_concat ..
  have first : ([kind, tag, len] ++ payload ++ [crc]).getD 0 0 = kind := rfl
  simp only [PortState.judge, h, List.dropLast_concat, last, first, hk, if_neg (not_not.2 hc)]
  rfl

/-- The conditions behind a known kind: its length, then the window. -/
theorem judge_of_kind (k : CommandKind) {tag len crc : Byte} {payload : List Byte} (hl : payload.length = len.toNat)
    (hc : crc8 ([k.code, tag, len] ++ payload) = crc) : x.judge true ([k.code, tag, len] ++ payload ++ [crc]) =
      if !k.allowsLength payload.length then .rejecting .lengthError
      else if 8 ≤ x.window then .rejecting .windowFull
      else .accepting ⟨k, tag, payload⟩ := by
  have last : ([k.code, tag, len] ++ payload ++ [crc]).getLastD 0 = crc := List.getLastD_concat ..
  have first : ([k.code, tag, len] ++ payload ++ [crc]).getD 0 0 = k.code := rfl
  simp only [PortState.judge, h, List.dropLast_concat, last, first, ofCode_code, hl, if_neg (not_not.2 hc)]
  rfl

end

section
variable {s : State} {p : Port} (he : s.isEnabled p = true) (hi : (s.port p).txn = none) {kind tag len crc : Byte}
  {payload : List Byte} (hl : payload.length = len.toNat)
include he hi hl

/-- A POST of a whole frame and one byte more. -/
theorem post_whole (more : Byte) :
    exec (.post p ([kind, tag, len] ++ payload ++ [crc, more]) .closed) s =
      .next (s.setPort p ({ s.port p with cmdQueue := (s.port p).cmdQueue
        ++ ((s.port p).judge s.isRunning ([kind, tag, len] ++ payload ++ [crc])).verdict.2 }.ended
        ([s.shownStatus p] ++ List.replicate (payload.length + 4) 0x00
          ++ [((s.port p).judge s.isRunning ([kind, tag, len] ++ payload ++ [crc])).verdict.1]))) := by
  have incomplete (m : Nat) (_ : 0 < m) (hm : m ≤ ([kind, tag, len] ++ payload).length) :
      frameComplete ([] ++ ([kind, tag, len] ++ payload).take m) = false :=
    frameComplete_take hl (by simpa using hm)
  refine (transaction_closed he hi 0x01 _).trans ?_
  rw [show (s.port p).choose s.isRunning 0x01 = .post [] from rfl, carried_post _ _ _ incomplete, List.nil_append,
    carried_post_complete _ _ _ (frameComplete_whole hl), carried_judged]
  simp [List.replicate_succ', List.append_assoc]

/-- A POST that ends before the byte more is complete: before its CRC-8 byte, or before the accept byte. -/
theorem post_truncated (more : Byte) {n : Nat} (hn : n ≤ payload.length + 4) : ∃ sent,
    exec (.post p (([kind, tag, len] ++ payload ++ [crc, more]).take n) .closed) s =
      .next (s.setPort p ((s.port p).ended sent)) := by
  have incomplete (k m : Nat) (_ : 0 < m) (hm : m ≤ (([kind, tag, len] ++ payload).take k).length) :
      frameComplete ([] ++ (([kind, tag, len] ++ payload).take k).take m) = false := by
    rw [List.nil_append, List.take_take]
    simp only [List.length_take, List.length_append, List.length_cons, List.length_nil] at hm
    exact frameComplete_take hl (by omega)
  have row (bs : List Byte) := transaction_closed he hi 0x01 bs
  rw [show (s.port p).choose s.isRunning 0x01 = .post [] from rfl] at row
  obtain hn | rfl := Nat.le_succ_iff.1 hn
  · have taken : ([kind, tag, len] ++ payload ++ [crc, more]).take n = ([kind, tag, len] ++ payload).take n ++ [] := by
      rw [List.take_append_of_le_length (by simpa using hn), List.append_nil]
    rw [taken]
    have ends := row (([kind, tag, len] ++ payload).take n ++ [])
    rw [carried_post _ _ _ (incomplete n), carried_nil] at ends
    exact ⟨_, ends⟩
  · have taken : ([kind, tag, len] ++ payload ++ [crc, more]).take (payload.length + 4)
        = ([kind, tag, len] ++ payload).take (payload.length + 3) ++ [crc] := by
      simp [List.take_append]
    have all : ([kind, tag, len] ++ payload).take (payload.length + 3) = [kind, tag, len] ++ payload :=
      List.take_of_length_le (by simp)
    rw [taken]
    have ends := row (([kind, tag, len] ++ payload).take (payload.length + 3) ++ [crc])
    rw [carried_post _ _ _ (incomplete _), all, List.nil_append,
      carried_post_complete _ _ _ (frameComplete_whole hl), carried_nil] at ends
    exact ⟨_, all.symm ▸ ends⟩

end

/-- Settles O43: the frame is judged in the order of Table 80, and the verdict is the accept byte and what is queued. -/
theorem postIsJudgedInOrder : Obligations.PostIsJudgedInOrder := by
  intro s p kind tag len crc more payload enabled idle hl x running shown frame answer
  have shown_eq : s.shownStatus p = shown := by simp [State.shownStatus, shown, running, x]
  have row {ph : TxnPhase} (h : x.judge running (frame ++ [crc]) = ph) :
      answer ph.verdict.1 (x.cmdQueue ++ ph.verdict.2) := by
    have whole := post_whole enabled idle hl (kind := kind) (tag := tag) (crc := crc) more
    rw [shown_eq] at whole
    subst h
    exact whole
  have rejected {code : AcceptCode} (h : x.judge running (frame ++ [crc]) = .rejecting code) :
      answer code.code x.cmdQueue := by
    have answered := row h
    rwa [TxnPhase.verdict, List.append_nil] at answered
  refine ⟨fun stopped => rejected (code := .notReady) ?_, fun runs =>
    ⟨fun resetting => rejected (code := .portResetting) ?_, fun normal =>
      ⟨fun bad => rejected (code := .crcError) ?_, fun good =>
        ⟨fun unknown => rejected (code := .unknownKind) ?_, fun k code => ?_⟩⟩⟩,
    fun n hn => post_truncated enabled idle hl more hn⟩
  · rw [stopped, judge_of_stopped]
  · rw [runs, judge_of_resetting resetting]
  · rw [runs, judge_of_badCrc normal bad]
  · rw [runs]
    exact judge_of_unknownKind normal good (ofCode_eq_none unknown)
  · subst code
    have judged : x.judge running (frame ++ [crc]) = x.judge true (frame ++ [crc]) := by rw [runs]
    have known := judge_of_kind normal k hl good
    refine ⟨fun bad => rejected (code := .lengthError) (judged.trans (known.trans ?_)),
      fun allowed full => rejected (code := .windowFull) (judged.trans (known.trans ?_)),
      fun allowed room => row (ph := .accepting ⟨k, tag, payload⟩) (judged.trans (known.trans ?_))⟩
    · simp [bad]
    · simp [allowed, full]
    · simp [allowed, Nat.not_le.2 room]

end Sys2Proof.Machine
end

section
/-! DRAIN in one step: the count, the records, the lost byte and the CRC-8, and what has left the port when so many bytes
are out (R155, R187). -/

namespace Sys2Proof.Machine

/-! ### What a DRAIN takes from its port -/

/-- A port from which this many records have left, and the lost flag too if it was reported: ATTN is re-evaluated when
one of these has happened (R155, R156). -/
def PortState.drained (x : PortState) (gone : Nat) (reported : Bool) : PortState :=
  if gone = 0 ∧ reported = false then x
  else ({ x with events := x.events.drop gone, lost := x.lost && !reported } : PortState).reevaluate

theorem drained_zero (x : PortState) : x.drained 0 false = x := if_pos ⟨rfl, rfl⟩

/-- A port without its first record. -/
def PortState.withoutFirst (x : PortState) : PortState :=
  ({ x with events := x.events.tail } : PortState).reevaluate

/-- The first record leaves before the others. -/
theorem drained_withoutFirst (x : PortState) (gone : Nat) (reported : Bool) :
    x.withoutFirst.drained gone reported = x.drained (gone + 1) reported := by
  have more : ¬(gone + 1 = 0 ∧ reported = false) := fun h => Nat.succ_ne_zero gone h.1
  rw [PortState.drained, PortState.drained, if_neg more]
  split
  · next h =>
    obtain ⟨rfl, rfl⟩ := h
    simp [PortState.withoutFirst, PortState.reevaluate, PortState.wantsAttention]
  · simp [PortState.withoutFirst, PortState.reevaluate, PortState.wantsAttention]

/-! ### The bytes of the records (R187) -/

/-- The byte of a port's lost flag in a DRAIN (R155). -/
def PortState.lostByte (x : PortState) : Byte := if x.lost then 0x01 else 0x00

/-- The bytes of the first records of a port. -/
def PortState.recordBytes (x : PortState) (k : Nat) : List Byte := (x.events.take k).flatMap EventRecord.bytes

theorem record_length (e : EventRecord) : e.bytes.length = 6 := rfl

section
variable {x : PortState} {e : EventRecord} {rest : List EventRecord} (he : x.events = e :: rest)
include he

theorem recordBytes_succ (k : Nat) :
    x.recordBytes (k + 1) = e.bytes ++ x.withoutFirst.recordBytes k := by
  simp [PortState.recordBytes, PortState.withoutFirst, he]

/-- The byte of the first record that goes out at a position, and the bytes after it. -/
theorem drop_recordBytes {k pos : Nat} (hk : 0 < k) (hp : pos < 6) (acc : List Byte) :
    (x.recordBytes k).drop pos = x.sends (.drainRecord k pos acc) :: (x.recordBytes k).drop (pos + 1) := by
  obtain ⟨k, rfl⟩ := Nat.exists_eq_succ_of_ne_zero hk.ne'
  have inside : pos < (x.recordBytes (k + 1)).length := by
    rw [recordBytes_succ he, List.length_append, record_length]
    omega
  have out : x.sends (.drainRecord (k + 1) pos acc) = e.bytes.getD pos 0x00 := by
    simp [PortState.sends, PortState.nextOut, he]
  rw [List.drop_eq_getElem_cons inside, out]
  congr 1
  have short : pos < e.bytes.length := hp
  simp [recordBytes_succ he, List.getElem_append_left, short]

end

/-- The bytes that a DRAIN still has to send, `k` records from byte `pos` of the first on, after the bytes `acc`. -/
def PortState.toSend (x : PortState) (acc : List Byte) (k pos : Nat) : List Byte :=
  (x.recordBytes k).drop pos ++ [x.lostByte, crc8 (acc ++ (x.recordBytes k).drop pos ++ [x.lostByte])]

/-- The phase in which `k` records are to go, the first of them from byte `pos` on. -/
def drainPhase (k pos : Nat) (acc : List Byte) : TxnPhase :=
  if k = 0 then .drainLost acc false else .drainRecord k pos acc

/-! ### Phase by phase -/

section
variable (x : PortState) (running : Bool) (kind b : Byte) (sent acc bs : List Byte)

theorem endPhase_drainLost : x.endPhase running b x.lostByte (.drainLost acc false) =
    (x.drained 0 x.lost, .drainCheck (acc ++ [x.lostByte])) := by
  cases hl : x.lost <;> simp [PortState.endPhase, PortState.lostByte, PortState.drained, hl]

/-- A record leaves when its sixth byte is out. -/
theorem endPhase_drainRecord (o : Byte) (k pos : Nat) : x.endPhase running b o (.drainRecord (k + 1) pos acc) =
    if pos + 1 < 6 then (x, drainPhase (k + 1) (pos + 1) (acc ++ [o]))
    else (x.withoutFirst, drainPhase k 0 (acc ++ [o])) := rfl

theorem carried_drainCheck : x.carried running kind (.drainCheck acc) sent bs =
    x.ended (sent ++ padded [crc8 acc] bs.length) := by
  cases bs with
  | nil => simp [carried_nil, padded_zero]
  | cons b bs =>
    have out : x.sends (.drainCheck acc) = crc8 acc := rfl
    rw [carried_cons, out]
    simp [PortState.endPhase, carried_rest, padded_cons, padded_nil]

/-- The lost flag is cleared once its byte is out. -/
theorem carried_drainLost : x.carried running kind (.drainLost acc false) sent bs =
    (x.drained 0 (x.lost && decide (1 ≤ bs.length))).ended
      (sent ++ padded [x.lostByte, crc8 (acc ++ [x.lostByte])] bs.length) := by
  cases bs with
  | nil => simp [carried_nil, padded_zero, drained_zero]
  | cons b bs =>
    have out : x.sends (.drainLost acc false) = x.lostByte := rfl
    rw [carried_cons, out, endPhase_drainLost]
    simp [carried_drainCheck, padded_cons]

end

section
variable {x : PortState} {k pos : Nat}

/-- Before the last byte of a record: the record's byte goes out. -/
theorem toSend_inside {e : EventRecord} {rest : List EventRecord} (he : x.events = e :: rest) (hk : 0 < k)
    (hp : pos < 6) (acc : List Byte) : x.toSend acc k pos =
      x.sends (.drainRecord k pos acc) :: x.toSend (acc ++ [x.sends (.drainRecord k pos acc)]) k (pos + 1) := by
  simp [PortState.toSend, drop_recordBytes he hk hp acc]

/-- After the last byte of a record the others are to be sent. -/
theorem toSend_next {e : EventRecord} {rest : List EventRecord} (he : x.events = e :: rest) (acc : List Byte) :
    x.toSend acc (k + 1) 6 = x.withoutFirst.toSend acc k 0 := by
  have others : (x.recordBytes (k + 1)).drop 6 = x.withoutFirst.recordBytes k := by
    rw [recordBytes_succ he, ← record_length e, List.drop_left]
  simp only [PortState.toSend, others, List.drop_zero]
  rfl

end

/-- From byte `pos` of a record on, with `k` records to go. -/
theorem carried_drain (x : PortState) (running : Bool) (kind : Byte) (sent : List Byte) {k pos : Nat}
    (hx : k ≤ x.events.length) (hp : pos < 6) (h0 : k = 0 → pos = 0) (acc bs : List Byte) :
    x.carried running kind (drainPhase k pos acc) sent bs =
      (x.drained (min k ((bs.length + pos) / 6)) (x.lost && decide (6 * k + 1 ≤ bs.length + pos))).ended
        (sent ++ padded (x.toSend acc k pos) bs.length) := by
  induction bs generalizing x sent k pos acc with
  | nil =>
    have gone : min k (pos / 6) = 0 := by omega
    have reported : decide (6 * k + 1 ≤ pos) = false := decide_eq_false (by omega)
    rw [List.length_nil, Nat.zero_add, gone, reported, Bool.and_false, drained_zero, padded_zero, List.append_nil,
      carried_nil]
  | cons b bs ih =>
    match k with
    | 0 =>
      obtain rfl := h0 rfl
      refine (carried_drainLost ..).trans ?_
      simp [PortState.toSend, PortState.recordBytes]
    | k + 1 =>
      obtain ⟨e, rest, he⟩ := List.exists_cons_of_length_pos (Nat.lt_of_lt_of_le k.succ_pos hx)
      rw [show drainPhase (k + 1) pos acc = .drainRecord (k + 1) pos acc from rfl, carried_cons,
        endPhase_drainRecord, toSend_inside he k.succ_pos hp acc, List.length_cons, padded_cons]
      generalize x.sends (.drainRecord (k + 1) pos acc) = o
      split
      · next inside =>
        rw [ih x _ hx inside (fun h => nomatch h), Nat.add_right_comm bs.length 1 pos, Nat.add_assoc bs.length pos 1]
        simp
      · next last =>
        obtain rfl : pos = 5 := by omega
        have fewer : k ≤ x.withoutFirst.events.length := by
          rw [he] at hx
          simpa [PortState.withoutFirst, he] using hx
        have gone : min (k + 1) ((bs.length + 1 + 5) / 6) = min k ((bs.length + 0) / 6) + 1 := by omega
        have reported : (6 * (k + 1) + 1 ≤ bs.length + 1 + 5) = (6 * k + 1 ≤ bs.length + 0) := by
          rw [eq_iff_iff]
          omega
        rw [ih x.withoutFirst _ fewer (by decide) (fun _ => rfl), drained_withoutFirst, toSend_next he, gone]
        simp only [reported, List.append_assoc, List.singleton_append]
        rfl

/-- A DRAIN of `k` records from its count byte on. -/
theorem carried_drainCount (x : PortState) (running : Bool) (kind : Byte) (sent : List Byte) {k : Nat}
    (hx : k ≤ x.events.length) (bs : List Byte) : x.carried running kind (.drainCount k) sent bs =
      (x.drained (min k ((bs.length - 1) / 6)) (x.lost && decide (6 * k + 2 ≤ bs.length))).ended
        (sent ++ padded (countByte k :: x.toSend [countByte k] k 0) bs.length) := by
  cases bs with
  | nil => simp [carried_nil, padded_zero, drained_zero]
  | cons b bs =>
    have out : x.sends (.drainCount k) = countByte k := rfl
    have next : x.endPhase running b (countByte k) (.drainCount k) = (x, drainPhase k 0 [countByte k]) := rfl
    have reported : (6 * k + 2 ≤ bs.length + 1) = (6 * k + 1 ≤ bs.length + 0) := by
      rw [eq_iff_iff]
      omega
    rw [carried_cons, out, next, carried_drain x _ _ _ hx (by decide) (fun _ => rfl), List.length_cons, padded_cons]
    simp only [reported, List.append_assoc, List.singleton_append, Nat.add_sub_cancel, Nat.add_zero]

/-! ### The row -/

/-- What a DRAIN changes, field by field. -/
theorem drained_eq (x : PortState) (gone : Nat) (reported : Bool) : x.drained gone reported =
    { x with
      events := x.events.drop gone, lost := x.lost && !reported
      attn := if gone = 0 ∧ reported = false then x.attn
        else !x.respQueue.isEmpty || !(x.events.drop gone).isEmpty || (x.lost && !reported) } := by
  unfold PortState.drained
  split
  · next h =>
    obtain ⟨rfl, rfl⟩ := h
    simp
  · rfl

theorem crc8_zeros : crc8 [0x00, 0x00] = 0x00 := by
  have zero : crc8Byte 0x00 0x00 = 0x00 := by decide
  simp only [crc8, List.foldl_cons, List.foldl_nil, zero]

/-- A DRAIN in one step, of the count that its kind byte settles. -/
theorem drain_row {s : State} {p : Port} (he : s.isEnabled p = true) (hi : (s.port p).txn = none) {k : Nat}
    (hk : (s.port p).choose s.isRunning 0x04 = .drainCount k) (hx : k ≤ (s.port p).events.length) (n : Nat) :
    exec (.drain p n .closed) s = .next (s.setPort p
      (((s.port p).drained (min k ((n - 1) / 6)) ((s.port p).lost && decide (6 * k + 2 ≤ n))).ended
        ([s.shownStatus p] ++ padded (countByte k :: (s.port p).toSend [countByte k] k 0) n))) := by
  refine (transaction_closed he hi 0x04 _).trans ?_
  rw [hk, carried_drainCount _ _ _ _ hx, List.length_replicate]

/-- Settles O45: the length says which records and whether the lost byte are out. A part that does not run sends a count
of none and a lost byte of 0x00, and the CRC-8 of these is 0x00. -/
theorem drainSendsAndRemovesRecords : Obligations.DrainSendsAndRemovesRecords := by
  intro s p n enabled idle x k body gone reported left lost
  refine ⟨fun running => ?_, fun stopped kept => ?_⟩
  · have counted : x.choose s.isRunning 0x04 = .drainCount k := by
      rw [isRunning_eq_true.2 running]
      rfl
    have bytes : countByte k :: x.toSend [countByte k] k 0 = body ++ [crc8 body] := by
      simp [PortState.toSend, PortState.recordBytes, PortState.lostByte, body, countByte]
    have shown : s.shownStatus p = x.statusByte := if_pos running
    refine (drain_row enabled idle counted (Nat.min_le_right ..) n).trans ?_
    rw [bytes, shown, drained_eq]
    rfl
  · have counted : x.choose s.isRunning 0x04 = .drainCount 0 := by
      rw [isRunning_eq_false.2 stopped]
      rfl
    have kept : (s.port p).lost = false := kept
    have reports : ((s.port p).lost && decide (6 * 0 + 2 ≤ n)) = false := by rw [kept, Bool.false_and]
    have zeros : countByte 0 :: (s.port p).toSend [countByte 0] 0 0 = List.replicate 3 0x00 := by
      rw [PortState.toSend, PortState.lostByte, kept, show (s.port p).recordBytes 0 = [] from rfl]
      exact congrArg (fun crc => [0x00, 0x00, crc]) crc8_zeros
    have shown : s.shownStatus p = 0x00 := if_neg stopped
    refine (drain_row enabled idle counted (Nat.zero_le _) n).trans ?_
    rw [zeros, padded_zeros, shown, reports, Nat.zero_min, drained_zero]
    rfl

end Sys2Proof.Machine
end

section
/-! Option fuses: the array state of a field and the value it loads, the READ_OPTIONS report, the checks before a burn
and its end (R170 to R175). -/

namespace Sys2Proof.Machine

/-! ### The array state of a field (Table 90) -/

theorem fuseState_of_burn {s : State} {b : Burn} (hb : s.burn = some b) : s.fuseState b.field = .burning := by
  simp [State.fuseState, hb]

/-- The markers decide for a field that is not being burned (R170). -/
theorem fuseState_of_not_burned {s : State} {x : FuseField} (h : ∀ b, s.burn = some b → b.field ≠ x) :
    s.fuseState x =
      if (s.fuse x).start && (s.fuse x).completion then .programmed
      else if (s.fuse x).start then .spoiled else .blank := by
  refine if_neg fun hb => ?_
  obtain ⟨b, burning, hx⟩ := (Option.any_eq_true _ _).1 hb
  exact h b burning (beq_iff_eq.1 hx)

/-! ### The shadow (R171) -/

theorem fuseState_eq_programmed_iff {s : State} (hb : s.burn = none) (x : FuseField) :
    s.fuseState x = .programmed ↔ (s.fuse x).start = true ∧ (s.fuse x).completion = true := by
  rw [fuseState_of_not_burned (fun b h => nomatch hb.symm.trans h), ← Bool.and_eq_true]
  split
  · next both => exact iff_of_true rfl both
  · next both => split <;> exact iff_of_false nofun both

/-- Settles O39: each item of the shadow reads the value that its field loads. -/
theorem shadowLoadsProgrammedFieldsOrDefaults : Obligations.ShadowLoadsProgrammedFieldsOrDefaults := by
  intro s hb programmed v
  have own {α : Type} (read : Word → α) (x : FuseField) (h : programmed x) :
      read (s.loadValue x) = read (s.fuse x).cells := by
    rw [State.loadValue, if_pos ((fuseState_eq_programmed_iff hb x).2 h)]
  have default {α : Type} (read : Word → α) (x : FuseField) (h : ¬programmed x) :
      read (s.loadValue x) = read x.default := by
    rw [State.loadValue, if_neg (mt (fuseState_eq_programmed_iff hb x).1 h)]
  have flag (x : FuseField) (h : programmed x) : (s.loadValue x == 1) = true ↔ (s.fuse x).cells = 1 := by
    rw [own (· == 1) x h, beq_iff_eq]
  exact ⟨own (·.setWidth 4) .portEnable, default (·.setWidth 4) .portEnable,
    own (·.setWidth 4) .definer, default (·.setWidth 4) .definer,
    own (·.toNat) .approvalWindow, default (·.toNat) .approvalWindow,
    own (·.toNat) .leasePeriod, default (·.toNat) .leasePeriod,
    own (·.toNat) .buildIdle, default (·.toNat) .buildIdle,
    own (·.toNat) .leaseLimit, default (·.toNat) .leaseLimit,
    own (·.toNat) .fixedSlots, default (·.toNat) .fixedSlots,
    flag .warmRetain, default (· == 1) .warmRetain,
    flag .provisionClosed, default (· == 1) .provisionClosed⟩

/-! ### READ_OPTIONS (R175) -/

/-- Where the items of a field stand in the report: in the order of the codes, five bytes each (Table 97). -/
theorem optionsReport_field (s : State) (x : FuseField) :
    (s.optionsReport.drop (5 * x.index.val)).take 5 = s.fuseItems x := by
  cases x <;> rfl

/-- Of a field that is not PROGRAMMED the report gives no array value (R175). -/
theorem arrayValue_of_not_programmed {c : FuseState} (h : c ≠ .programmed) (cells : Word) :
    wordBytes (if c = .programmed then cells else 0) = [0, 0] := by
  rw [if_neg h]
  decide

theorem optionsReport_of_claimCommand {s t : State} {p : Port} {k : CommandKind} {f : Frame}
    (h : s.claimCommand p k = some (f, t)) : t.optionsReport = s.optionsReport := by
  rw [claimCommand_frame h]
  rfl

/-- Settles O40: its body answers the report, whatever the session, and the array state of a field decides its items. -/
theorem readOptionsReportsArrayAndShadow : Obligations.ReadOptionsReportsArrayAndShadow := by
  intro s t p f h
  have answered : answers (.readOptions p) s p f t .ok s.optionsReport := by
    rw [← optionsReport_of_claimCommand h]
    exact controlCommand_answer (body := readOptionsBody) h rfl
  refine ⟨s.optionsReport, answered, rfl, fun x => ?_, rfl⟩
  refine ⟨_, _, _, optionsReport_field s x, rfl, ?_, fun other => ?_⟩
  · rintro ⟨b, hb, rfl⟩
    rw [fuseState_of_burn hb]
    exact ⟨rfl, arrayValue_of_not_programmed (by decide) _⟩
  · have markers := fuseState_of_not_burned other
    refine ⟨fun start => ?_, fun start completion => ?_, fun start completion => ?_⟩
    · have blank : s.fuseState x = .blank := by simpa [start] using markers
      rw [blank]
      exact ⟨rfl, arrayValue_of_not_programmed (by decide) _⟩
    · have programmed : s.fuseState x = .programmed := by simpa [start, completion] using markers
      rw [programmed]
      exact ⟨rfl, rfl⟩
    · have spoiled : s.fuseState x = .spoiled := by simpa [start, completion] using markers
      rw [spoiled]
      exact ⟨rfl, arrayValue_of_not_programmed (by decide) _⟩

/-! ### The checks before a burn (R172, R174) -/

/-- What PROGRAM_OPTION and CLOSE_PROVISIONING come to once the session and the fields are in order: the checks on the
fuse array, and the hand-over. `programOptionBody_eq` and `closeProvisioningBody_eq` tie it to the two commands. -/
def State.burnOrRefuse (s : State) (x : FuseField) (v : Word) (p : Port) : CommandResult :=
  if s.fuseState .provisionClosed = .programmed then refuse s .provisioningClosed
  else if s.fuseState x = .programmed then refuse s .fuseSet
  else if s.fuseState x = .spoiled then refuse s .fuseSpoiled
  else if s.burn.isSome then refuse s .fuseBusy
  else .handOver (s.startBurn x v p)

theorem fuseField_ofCode_code (x : FuseField) : FuseField.ofCode x.code = some x := by cases x <;> rfl

/-- The fields of PROGRAM_OPTION in range (R172 step 2). -/
theorem optionArgs_eq_some {x : FuseField} {v : Word} (hx : x ≠ .provisionClosed) (hv : x.inRange v = true) :
    optionArgs ([x.code] ++ wordBytes v) = some (x, v) := by
  simp [wordBytes, optionArgs, fuseField_ofCode_code, hx, hv]

theorem programOptionBody_eq {s : State} {p : Port} {f : Frame} {x : FuseField} {v : Word} (ha : s.isAttached p = true)
    (hf : optionArgs f.payload = some (x, v)) : programOptionBody p f s = s.burnOrRefuse x v p := by
  simp [programOptionBody, ha, hf, State.burnOrRefuse]

/-- Of PROVISION_CLOSED itself the state PROGRAMMED is met by the first check, so that FUSE_SET is never answered. -/
theorem closeProvisioningBody_eq {s : State} {p : Port} {f : Frame} (ha : s.isAttached p = true) :
    closeProvisioningBody p f s = s.burnOrRefuse .provisionClosed 1 p := by
  unfold closeProvisioningBody State.burnOrRefuse
  by_cases hc : s.fuseState .provisionClosed = .programmed <;> simp [ha, hc]

/-- The row of a body that hands its command over. -/
theorem controlCommand_handOver {p : Port} {k : CommandKind} {body : Frame → State → CommandResult} {s t u : State}
    {f : Frame} (h : s.claimCommand p k = some (f, t)) (hb : body f t = .handOver u) :
    controlCommand p k body s = .next u := by
  simp [controlCommand, h, hb]

/-- The row and the body of each of the two commands. -/
theorem burnCommand_row {s t : State} {p : Port} {f : Frame} {x : FuseField} {v : Word} {c : Instr}
    (ha : s.isAttached p = true)
    (h : (c = .programOption p ∧ s.claimCommand p .programOption = some (f, t)
        ∧ f.payload = [x.code] ++ wordBytes v ∧ x ≠ .provisionClosed ∧ x.inRange v = true)
      ∨ (c = .closeProvisioning p ∧ s.claimCommand p .closeProvisioning = some (f, t) ∧ x = .provisionClosed
        ∧ v = 1)) :
    ∃ k body, s.claimCommand p k = some (f, t) ∧ exec c s = controlCommand p k body s
      ∧ body f t = t.burnOrRefuse x v p := by
  obtain ⟨rfl, hc, hf, hx, hv⟩ | ⟨rfl, hc, rfl, rfl⟩ := h
  · exact ⟨_, programOptionBody p, hc, rfl, programOptionBody_eq ((isAttached_of_claimCommand hc p).trans ha)
      (hf ▸ optionArgs_eq_some hx hv)⟩
  · exact ⟨_, closeProvisioningBody p, hc, rfl,
      closeProvisioningBody_eq ((isAttached_of_claimCommand hc p).trans ha)⟩

/-- Settles O41: both commands make the same checks on the fuse array, which their taking leaves as it was. -/
theorem programOptionAndCloseProvisioning : Obligations.ProgramOptionAndCloseProvisioning := by
  intro s t p f x v c ha hc
  obtain ⟨k, body, claim, row, hbody⟩ := burnCommand_row ha hc
  have array (y : FuseField) : t.fuseState y = s.fuseState y := by rw [claimCommand_frame claim]; rfl
  have burn : t.burn = s.burn := by rw [claimCommand_frame claim]
  have fuse : t.fuse x = s.fuse x := by rw [claimCommand_frame claim]; rfl
  rw [State.burnOrRefuse, array, array, burn, State.startBurn, fuse] at hbody
  have answer {st : Status} (h : body f t = refuse t st) : answers c s p f t st [] :=
    row.trans (controlCommand_answer claim h)
  refine ⟨fun closed => answer (hbody.trans (if_pos closed)), fun unclosed => ?_⟩
  rw [if_neg unclosed] at hbody
  refine ⟨fun set => answer (hbody.trans (if_pos set)), fun spoiled => ?_, fun free => ?_⟩
  · exact answer (by simpa [spoiled] using hbody)
  · have unset : s.fuseState x ≠ .programmed := by rintro h; simp [h] at free
    have sound : s.fuseState x ≠ .spoiled := by rintro h; simp [h] at free
    rw [if_neg unset, if_neg sound] at hbody
    refine ⟨fun busy => ?_, fun idle => ?_⟩
    · exact answer (hbody.trans (if_pos (Option.isSome_iff_ne_none.2 busy)))
    · rw [idle] at hbody
      exact row.trans (controlCommand_handOver claim hbody)

/-! ### The end of a burn (R173) -/

theorem completeBurn_of_inExec {s : State} {b : Burn} {e : Execution} (he : (s.port b.port).inExec = some e) :
    s.completeBurn b =
      { s.setFuse b.field { start := true, completion := true, cells := b.value } with burn := none }.deliverResponse
        b.port ⟨e.frame.kind, e.frame.tag, .ok, burnPayload b⟩ := by
  simp only [State.completeBurn, he]

/-- Settles O42: the field burned decides the payload of the response. -/
theorem burnCompletionProgramsField : Obligations.BurnCompletionProgramsField := by
  intro s b f d hb he done
  have row : exec .burnCompletion s = .next (done.deliverResponse b.port ⟨f.kind, f.tag, .ok, burnPayload b⟩) := by
    rw [← completeBurn_of_inExec he]
    simp only [exec, execBurnCompletion, hb]
  refine ⟨fun option => ?_, fun closing => ?_⟩
  · rw [row, burnPayload, if_neg option]
    rfl
  · rw [row, burnPayload, if_pos closing]

end Sys2Proof.Machine
end

section
/-! The resets of the device and its start-ups: the state after each row (R161, R176 to R179). -/

namespace Sys2Proof.Machine

/-! ### The reset (R177) -/

/-- A port at a device reset: emptied, with its transaction discarded (R161; log 7, log 13). -/
theorem enterReset_port_eq (s : State) (x : Phase) (p : Port) : (s.enterReset x).port p = { s.port p with
    txn := (s.port p).txn.map (fun t => { t with
      phase := .rest
      out := t.out.map (fun b =>
        if t.phase = .rest ∨ b = 0x00 then b else Config.cutByte p.val (s.port p).cuts) })
    cuts := if (s.port p).txn.any (fun t => decide (t.phase ≠ .rest) && t.out.any (fun b => b != 0x00))
      then (s.port p).cuts + 1 else (s.port p).cuts
    cmdQueue := [], inExec := none, respQueue := [], lastFetched := none, events := [], lost := false
    attn := false } := by
  rw [enterReset_port, PortState.deviceReset, discardTxn_eq]
  rfl

/-- The value in use decides the kind of the reset, but after a cold start-up cut short (R177). -/
theorem assertedKind_eq_warm_iff {s : State} (h : s.phase = .running ∨ s.phase = .startUp .warm) :
    s.assertedKind = .warm ↔ s.inUse.warmRetain = true := by
  have byFuse : s.assertedKind = s.rstnKind := by
    obtain h | h := h <;> rw [State.assertedKind, h]
  rw [byFuse, State.rstnKind]
  cases s.inUse.warmRetain <;> simp

/-- The state after power-on (R177; log 10, log 12): `exec_powerOn` ties it to the row. -/
def State.poweredOn (s : State) : State :=
  { s with
    ports := (s.enterReset (.inReset .cold)).ports, ready := false, lanes := Vector.replicate 2 none, burn := none,
    requests := [], phase := if s.rstnLow then .inReset .cold else .startUp .cold,
    time := if s.rstnLow then s.time else 0, shadow := none, store := [] }

theorem exec_powerOn (s : State) : exec .powerOn s = .next s.poweredOn := by
  simp only [exec, execPowerOn, State.beginStartUp, State.poweredOn]
  rw [enterReset_frame]
  cases s.rstnLow <;> rfl

/-- Settles O49: each of the two resets empties the ports, and the release of RSTN begins the start-up of the kind that
its assertion or power-on has decided. -/
theorem deviceResetAndItsKind : Obligations.DeviceResetAndItsKind := by
  intro s emptied
  refine ⟨fun high => ?_, fun kind low reset => ?_, ?_⟩
  · refine ⟨{ s.enterReset (.inReset s.assertedKind) with rstnLow := true }, s.assertedKind, ?_,
      enterReset_port_eq s (.inReset s.assertedKind), ?_, assertedKind_eq_warm_iff, fun cold => ?_⟩
    · simp only [exec, execRstnAsserted, high]
      rfl
    · rw [enterReset_frame]
    · rw [State.assertedKind, cold]
  · simp only [exec, execRstnReleased, low, reset]
    rfl
  · exact ⟨_, exec_powerOn s, enterReset_port_eq s (.inReset .cold), rfl⟩

/-! ### A cold start-up (R178) -/

theorem coldStart_frame (s : State) : s.coldStart = { s with
    ports := s.coldStart.ports, shadow := some s.loadShadow, slots := Vector.replicate 64 SlotRecord.vacant,
    records := Vector.replicate 128 none, freeList := List.finRange 512, contexts := Vector.replicate 4 none,
    proposals := Vector.replicate 8 none, leases := Vector.replicate 32 none,
    sessions := Vector.replicate 4 { state := .detached, last := 0, teardownPending := false },
    lanes := Vector.replicate 2 none, controlPtr := 0, lanePtr := 0, requests := [], storeLowArmed := true,
    ready := true, phase := .running } := by
  unfold State.coldStart State.startCommon
  rw [eachPort_frame, loadOptions_frame]
  rfl

/-- A port after a cold start-up, by the value that the shadow loads (Table 82, R160). -/
theorem coldStart_port (s : State) (p : Port) : s.coldStart.port p =
    PortState.started (s.loadShadow.portEnable.getLsbD p.val)
      (PortState.roled (s.loadShadow.portEnable.getLsbD p.val) (s.port p)) := by
  have port : s.coldStart.port p = s.loadOptions.startCommon.port p := by
    unfold State.coldStart
    generalize s.loadOptions.startCommon = t
    simp only [State.port]
  rw [port, startCommon_port, loadOptions_port]
  rfl

theorem exec_coldStartUp {s : State} (h : s.phase = .startUp .cold) : exec .coldStartUp s = .next s.coldStart := by
  simp only [exec, execColdStartUp, h]

/-- Settles O50: the shadow loaded says which ports are enabled, and a port that it disables has lost its transaction
before the start-up sets it. -/
theorem coldStartUpClearsThePart : Obligations.ColdStartUpClearsThePart := by
  intro s hs
  refine ⟨_, exec_coldStartUp hs, coldStart_frame s, fun p =>
    ⟨PortState.roled (s.loadShadow.portEnable.getLsbD p.val) (s.port p), coldStart_port s p, fun enabled => ?_,
      fun disabled => ?_⟩⟩
  · rw [enabled]
    exact ⟨rfl, rfl⟩
  · rw [disabled]
    exact ⟨rfl, rfl⟩

/-! ### The state after reset (log 9) -/

/-- A BLANK array loads the defaults (R171). -/
theorem loadShadow_of_blank {s : State} (hb : s.burn = none) (hf : s.fuses = Vector.replicate 9 FuseCell.blank) :
    s.loadShadow = Shadow.defaults := by
  have value (x : FuseField) : s.loadValue x = x.default := by
    have blank : s.fuse x = FuseCell.blank := by rw [State.fuse, hf]; exact Vector.getElem_replicate _
    refine if_neg fun h => ?_
    rw [fuseState_eq_programmed_iff hb, blank] at h
    exact nomatch h.1
  simp only [State.loadShadow, value]
  rfl

theorem defaults_enable : ∀ p : Port, Shadow.defaults.portEnable.getLsbD p.val = true := by decide

/-- An enabled port that was at rest before power-on ends its start-up as the state after reset has it (Table 82). -/
theorem started_of_rest {s : State} {p : Port} (line : (s.port p).prstnLow = false) (txn : (s.port p).txn = none)
    (sent : (s.port p).sent = []) (cuts : (s.port p).cuts = 0) :
    PortState.started true (PortState.roled true (s.poweredOn.port p)) = PortState.initial := by
  have port : s.poweredOn.port p = PortState.deviceReset p (s.port p) := enterReset_port s (.inReset .cold) p
  rw [port, PortState.deviceReset, discardTxn_eq, txn, cuts]
  simp [PortState.started, PortState.roled, PortState.reevaluate, line, sent, PortState.initial]

theorem ports_eq_of_port {s : State} {ports : Vector PortState 4} (h : ∀ p : Port, s.port p = ports[p]) :
    s.ports = ports :=
  Vector.ext fun i hi => h ⟨i, hi⟩

/-- Settles O52: power-on leaves each port at rest and the array BLANK, and the cold start-up clears what is left. -/
theorem resetStateIsAColdStart : Obligations.ResetStateIsAColdStart := by
  intro s fuses high queue rest
  have begun : s.poweredOn.phase = .startUp .cold := by simp [State.poweredOn, high]
  have loaded : s.poweredOn.loadShadow = Shadow.defaults := loadShadow_of_blank rfl fuses
  have ports : s.poweredOn.coldStart.ports = State.reset.ports := by
    refine ports_eq_of_port fun p => ?_
    obtain ⟨line, txn, sent, cuts⟩ := rest p
    rw [coldStart_port, loaded, defaults_enable]
    exact (started_of_rest line txn sent cuts).trans (reset_port p).symm
  refine ⟨_, exec_powerOn s, ?_⟩
  rw [exec_coldStartUp begun, coldStart_frame, ports, loaded]
  simp only [State.poweredOn, high, fuses, queue]
  rfl

/-! ### A warm start-up (R179) -/

/-- What a warm start-up clears and keeps; its ports, slots, records, free list and sessions have their own lemmas. -/
theorem warmStart_frame (s : State) : s.warmStart = { s with
    ports := s.warmStart.ports, slots := s.warmStart.slots, records := s.warmStart.records
    freeList := s.warmStart.freeList, sessions := s.warmStart.sessions
    contexts := Vector.replicate 4 none, proposals := Vector.replicate 8 none, leases := Vector.replicate 32 none,
    lanes := Vector.replicate 2 none, controlPtr := 0, lanePtr := 0, requests := [],
    storeLowArmed := decide (32 ≤ s.warmStart.freeList.length), ready := true, phase := .running } := by
  rw [warmStart_freeList, warmStart_records]
  unfold State.warmStart State.startCommon
  rw [eachPort_frame]
  rfl

/-- A session entry after a warm start-up: DETACHED, with its last session number (R129). -/
theorem warmStart_session (s : State) (p : Port) :
    s.warmStart.session p = { s.session p with state := .detached, teardownPending := false } := by
  unfold State.warmStart
  generalize s.startCommon = t
  simp [State.session]

theorem mem_blocksInUse {s : State} {b : BlockIndex} :
    b ∈ blocksInUse s.records.toList ↔ ∃ r g, s.record r = some g ∧ b ∈ g.blocks := by
  rw [blocksInUse, List.mem_flatMap]
  constructor
  · rintro ⟨x, hx, hb⟩
    obtain ⟨i, hi, rfl⟩ := Vector.mem_iff_getElem.1 (Vector.mem_toList_iff.1 hx)
    cases hg : s.records[i] with
    | none => simp [hg] at hb
    | some g => exact ⟨⟨i, hi⟩, g, hg, by simpa [hg] using hb⟩
  · rintro ⟨r, g, hg, hb⟩
    exact ⟨some g, Vector.mem_toList_iff.2 (hg ▸ Vector.getElem_mem r.isLt), hb⟩

/-- The blocks that no kept record holds are free (R21). -/
theorem mem_warmStart_freeList {s : State} {b : BlockIndex} :
    b ∈ s.warmStart.freeList ↔ ∀ r g, s.warmStart.record r = some g → b ∉ g.blocks := by
  rw [warmStart_freeList]
  simp [mem_blocksInUse]

theorem pairwise_warmStart_freeList (s : State) : s.warmStart.freeList.Pairwise (fun a b => a < b) := by
  rw [warmStart_freeList]
  exact (List.pairwise_lt_finRange 512).filter _

theorem exec_warmStartUp {s : State} (h : s.phase = .startUp .warm) : exec .warmStartUp s = .next s.warmStart := by
  simp only [exec, execWarmStartUp, h]

/-- Settles O51: the start-up keeps the CURRENT records and the definitions of slots that are not RETIRING, and every
block that no record kept holds is free. -/
theorem warmStartUpKeepsCurrentGenerations : Obligations.WarmStartUpKeepsCurrentGenerations := by
  intro s hs
  refine ⟨_, exec_warmStartUp hs, warmStart_frame s, fun r => ?_, fun b => mem_warmStart_freeList,
    pairwise_warmStart_freeList s, fun k => ?_, warmStart_session s, warmStart_port s⟩
  · rw [warmStart_record]
    cases s.record r with
    | none => rfl
    | some g => cases h : g.state.isCurrent <;> simp [GenRecord.warm, h]
  · rw [warmStart_slot]
    refine ⟨fun h => ?_, fun h => ?_⟩
    · obtain h | ⟨d, h⟩ := h <;> simp only [SlotRecord.warm, h]
    · obtain ⟨d, h⟩ | ⟨d, r, h⟩ := h <;> simp only [SlotRecord.warm, h]

end Sys2Proof.Machine
end

section
/-! The step with a command waiting. -/

namespace Sys2Proof.Machine

theorem step_of_front {s : State} {c : Instr} {rest : List Instr} (h : s.pending = c :: rest) :
    step s = exec c { s with pending := rest } := by rw [step, h]

/-- Settles O1: the queue is the only field in which the two states differ, and the step has replaced it by the rest. -/
theorem stepRunsFrontCommand : Obligations.StepRunsFrontCommand := fun _ _ _ => step_of_front rfl

end Sys2Proof.Machine
end
